-- ==== Sys2Proof/Word.lean ====
section
/-! DEFINITION. The word types of the KX4120: bytes, router time, host and module addresses, and the index types of its numbered things (00_scope.md section 6). -/

namespace Sys2Proof

/-- One byte of a frame or of an aperture record. -/
abbrev Byte := BitVec 8

/-- Router time, a 32-bit count of microseconds (R176). -/
abbrev Time := BitVec 32

/-- An address on the trunk, 40 bits (00_scope.md section 5). -/
abbrev HostAddr := BitVec 40

/-- An address on a branch, 32 bits (00_scope.md section 5). -/
abbrev ModuleAddr := BitVec 32

/-- A 32-bit wrapping counter (R101, R107). -/
abbrev Counter := BitVec 32

/-- A branch port, 0 to 3. -/
abbrev PortIdx := Fin 4

/-- A window, 0 to 23 (R1). -/
abbrev WindowIdx := Fin 24

/-- A ticket entry, 0 to 15 (R61). -/
abbrev EntryIdx := Fin 16

/-- An event line, 0 to 32 (R145). -/
abbrev LineIdx := Fin 33

end Sys2Proof
end

