-- ==== Sys2Proof/Machine/Bytes.lean ====
section
/-! DEFINITION. Byte order and the frame CRC: every multi-byte field is sent most significant byte first (00_scope.md section 5, R188), and every frame ends in the CRC of R186. -/

namespace Sys2Proof

/-- The number that bytes spell, most significant byte first (R188). -/
def beNat (bs : List Byte) : Nat := bs.foldl (fun a b => a * 256 + b.toNat) 0

/-- The low `n` bytes of a number, most significant byte first (R188). -/
def beBytes : Nat → Nat → List Byte
  | 0, _ => []
  | n + 1, v => BitVec.ofNat 8 (v / 256 ^ n) :: beBytes n v

/-- One bit shifted into the CRC register, polynomial x^16 + x^12 + x^5 + 1 (R186). -/
def crcBit (c : BitVec 16) (b : Bool) : BitVec 16 :=
  if c.msb ^^ b then (c <<< 1) ^^^ 0x1021#16 else c <<< 1

/-- One byte shifted in, most significant bit first (R186). -/
def crcByte (c : BitVec 16) (b : Byte) : BitVec 16 :=
  [7, 6, 5, 4, 3, 2, 1, 0].foldl (fun c k => crcBit c (b.getLsbD k)) c

/-- The CRC of a frame's bytes before its last two, from 0xFFFF, not inverted (R186). -/
def crc16 (bs : List Byte) : BitVec 16 := bs.foldl crcByte 0xFFFF#16

/-- A frame: its bytes followed by their CRC, most significant byte first (R186). -/
def sealFrame (body : List Byte) : List Byte := body ++ beBytes 2 (crc16 body).toNat

/-- A frame size that R186 lets be examined: 3 to 73 bytes. -/
def sizeFramed (size : Nat) : Bool := 3 ≤ size && size ≤ 73

end Sys2Proof
end

