-- ==== Sys2Proof/Syntax.lean ====
section
/-! DEFINITION. The commands of the KX4120: one constructor of `Instr` for each row of spec/opcode_table.json, with the operands that the row's rule gives the happening. -/

namespace Sys2Proof

/-- One of the five links: the trunk, or the branch of a port (R83). -/
inductive Link where
  | trunk
  | branch (p : PortIdx)
  deriving DecidableEq, Repr

/-- A READ or WRITE frame as it arrives on the trunk, its fields where R187 places them.
`size` is the whole frame's size in bytes, CRC included; `data` is the bytes after the header. -/
inductive TrunkRequest where
  | read (size : Nat) (ticket length : Byte) (address : HostAddr)
  | write (size : Nat) (length : Byte) (address : HostAddr) (data : List Byte)
  deriving DecidableEq, Repr

/-- The 50 commands. A received frame carries its fields as received and its size in bytes, so that a
frame that fails the checks of R98 can be written too. A management write row is the trunk WRITE frame
that the row names (log 14). -/
inductive Instr where
  /-- POR_N is taken low (R184). -/
  | porAssert
  /-- POR_N is released with these levels on ID1 and ID0 (R185, R190). -/
  | porRelease (id1 id0 : Bool)
  /-- The receiver of a link reports its signal lost (R100, R190). -/
  | signalLost (l : Link)
  /-- A frame arrives whose CRC fails, or that is malformed in framing (R99, R186). -/
  | crcError (l : Link)
  /-- A READ or WRITE arrives on the trunk (R97, R126). -/
  | trunkIngressFrame (f : TrunkRequest)
  /-- A RESET frame arrives on the trunk (R133). -/
  | trunkReset (size : Nat)
  /-- A SYNC arrives from the partner (R89, R90, R118 to R120). -/
  | syncReceived (l : Link) (size : Nat) (a b : Byte)
  /-- A SYNC-ACK arrives from the partner (R88, R90). -/
  | syncAckReceived (l : Link) (size : Nat) (a b : Byte)
  /-- A CREDIT arrives from the partner (R94). -/
  | creditReceived (l : Link) (size : Nat) (a b : Byte)
  /-- A WRITE arrives from a module (R123). -/
  | moduleWriteArrival (p : PortIdx) (size : Nat) (length : Byte) (address : ModuleAddr) (data : List Byte)
  /-- A RESULT with a status of 0 to 7 arrives from a module (R69, R125). -/
  | branchResultArrival (p : PortIdx) (size : Nat) (status : BitVec 3) (branchTicket dataCount : Byte) (data : List Byte)
  /-- An EVENT with a code of 0 to 7 arrives from a module (R125). -/
  | eventFrame (p : PortIdx) (size : Nat) (code : BitVec 3)
  /-- A DOZE-ACK arrives from a module (R116). -/
  | dozeAck (p : PortIdx) (size : Nat)
  /-- A WAKE arrives from a module (R116, R119). -/
  | moduleWake (p : PortIdx) (size : Nat)
  /-- A link's resend deadline is reached (R87, R91). -/
  | resendDeadline (l : Link)
  /-- A link's retry deadline is reached (R92). -/
  | retryDeadline (l : Link)
  /-- A ticket entry's deadline is reached (R72). -/
  | ticketDeadline (i : EntryIdx)
  /-- The head wait deadline is reached (R58). -/
  | headWaitDeadline
  /-- A port's answer deadline is reached (R117). -/
  | answerDeadline (p : PortIdx)
  /-- A port's wake deadline is reached (R121). -/
  | wakeDeadline (p : PortIdx)
  /-- A port's idle deadline is reached (R113). -/
  | idleDeadline (p : PortIdx)
  /-- A link's transmitter takes a SYNC that is due (R86, R87). -/
  | syncTransmit (l : Link)
  /-- A link's transmitter takes a SYNC-ACK that is due (R86, R89). -/
  | syncAckTransmit (l : Link)
  /-- A link's transmitter takes a CREDIT that is due (R93). -/
  | creditTransmit (l : Link)
  /-- A port's transmitter takes a DOZE-REQ that is due (R110, R115). -/
  | dozeReqTransmit (p : PortIdx)
  /-- A port's transmitter takes a WAKE that is due (R110). -/
  | wakeTransmit (p : PortIdx)
  /-- A port's transmitter takes the head of its branch egress queue (R109). -/
  | branchEgressTransmit (p : PortIdx)
  /-- The trunk transmitter takes the head of the reply lane (R76, R137). -/
  | replyLaneTransmit
  /-- The trunk transmitter takes the head of the general queue (R137). -/
  | generalQueueTransmit
  /-- The host writes a whole window record (R7, R10). -/
  | windowRecordWrite (w : WindowIdx) (bytes : Vector Byte 32)
  /-- The host writes the 8-byte aperture base field (R169). -/
  | apertureBaseWrite (value : BitVec 64)
  /-- The host writes the ticket lifetime (R65). -/
  | ticketLifetimeWrite (value : BitVec 32)
  /-- The host writes the head wait limit (R59). -/
  | headWaitLimitWrite (value : BitVec 32)
  /-- The host writes the router control command 1 (R180). -/
  | routerReset
  /-- The host writes a port's first control group, for its enable (R105). -/
  | portEnable (p : PortIdx) (enable upWrite : Byte) (interval : BitVec 16)
  /-- The host writes a port's first control group, for its auto-doze interval (R113). -/
  | autoDozeIntervalWrite (p : PortIdx) (enable upWrite : Byte) (interval : BitVec 16)
  /-- The host writes a port's command 1 (R114). -/
  | dozeCommand (p : PortIdx)
  /-- The host writes a port's command 2 (R120). -/
  | wakeCommand (p : PortIdx)
  /-- The host writes a port's command 3 (R106). -/
  | portResetCommand (p : PortIdx)
  /-- The host writes an event line's enable and vector (R151). -/
  | eventLineEnableWrite (i : LineIdx) (enable vector : Byte)
  /-- The host writes an event line's command 1 (R152). -/
  | ack (i : LineIdx)
  /-- The host writes an event line's command 2 (R153). -/
  | clear (i : LineIdx)
  /-- The host writes the fault log's command 1 (R164). -/
  | pop
  /-- The host writes the fault log's dropped count (R163). -/
  | droppedCountClear (value : BitVec 32)
  /-- The host writes `count` counters of a link's record from number `first` on (0 frames out, 1 frames in,
  2 CRC errors, 3 frames discarded, 4 a branch's stale counter), each with `value` (R179). -/
  | counterClear (l : Link) (first count : Nat) (value : BitVec 32)
  /-- The host writes `data` at an offset of the aperture (R172). -/
  | managementWrite (offset : BitVec 16) (data : List Byte)
  /-- The receiver of a link reports its signal present again (R190). -/
  | signalPresent (l : Link)
  /-- One microsecond of the reference clock passes (R176). -/
  | routerTimeTick
  /-- The frame in transmission on a link ends (R95, R137). -/
  | transmitterFree (l : Link)
  /-- A frame arrives whose kind byte is not allowed in its direction (R98). -/
  | disallowedKindFrame (l : Link) (size : Nat) (kind : Byte)
  deriving DecidableEq, Repr

end Sys2Proof
end

