-- ==== Sys2Proof/Decode.lean ====
section
/-! DEFINITION. What spells a command. The opcode table gives no row any bits, so no table word spells one; the frames of the links do: a received run of bytes is the command that R186, R187 and the kind bytes of R98 make it, and a received frame is written back as its bytes. -/

namespace Sys2Proof

/-- The rows of spec/opcode_table.json give no bits, so no word spells a command. -/
def decodeTableWord (_nbits _w : Nat) : Option Instr := none

/-- Whether a kind byte is allowed from the host (R98). -/
def hostKind (k : Byte) : Bool :=
  k == 0x10 || k == 0x20 || k == 0x80 || k == 0x90 || k == 0xA0 || k == 0xF0

/-- Whether a kind byte is allowed from a module (R98). -/
def moduleKind (k : Byte) : Bool :=
  k == 0x10 || (0x30 ≤ k && k ≤ 0x37) || (0x40 ≤ k && k ≤ 0x47) || k == 0x80 || k == 0x90 || k == 0xA0
    || k == 0xB1 || k == 0xC0

/-- Whether a kind byte is allowed in the direction toward the router on this link (R98). -/
def kindAllowed : Link → Byte → Bool
  | .trunk, k => hostKind k
  | .branch _, k => moduleKind k

/-- The command of a frame from the host with a good CRC, by its kind byte (R98) and the layouts of R187. -/
def hostFrame (size : Nat) (body : List Byte) : Instr :=
  let f := fun k => body.getD k 0
  let k := f 0
  if k = 0x10 then
    .trunkIngressFrame (.write size (f 1) (BitVec.ofNat 40 (beNat ((body.drop 2).take 5))) (body.drop 7))
  else if k = 0x20 then
    .trunkIngressFrame (.read size (f 1) (f 2) (BitVec.ofNat 40 (beNat ((body.drop 3).take 5))))
  else if k = 0x80 then .syncReceived .trunk size (f 1) (f 2)
  else if k = 0x90 then .syncAckReceived .trunk size (f 1) (f 2)
  else if k = 0xA0 then .creditReceived .trunk size (f 1) (f 2)
  else if k = 0xF0 then .trunkReset size
  else .disallowedKindFrame .trunk size k

/-- The command of a frame from a module with a good CRC (R98, R187). -/
def moduleFrame (p : PortIdx) (size : Nat) (body : List Byte) : Instr :=
  let f := fun k => body.getD k 0
  let k := f 0
  if k = 0x10 then
    .moduleWriteArrival p size (f 1) (BitVec.ofNat 32 (beNat ((body.drop 2).take 4))) (body.drop 6)
  else if 0x30 ≤ k ∧ k ≤ 0x37 then
    .branchResultArrival p size (k.setWidth 3) (f 1) (f 2) (body.drop 3)
  else if 0x40 ≤ k ∧ k ≤ 0x47 then .eventFrame p size (k.setWidth 3)
  else if k = 0x80 then .syncReceived (.branch p) size (f 1) (f 2)
  else if k = 0x90 then .syncAckReceived (.branch p) size (f 1) (f 2)
  else if k = 0xA0 then .creditReceived (.branch p) size (f 1) (f 2)
  else if k = 0xB1 then .dozeAck p size
  else if k = 0xC0 then .moduleWake p size
  else .disallowedKindFrame (.branch p) size k

/-- The command that a received run of bytes is: a size outside 3..73 or a wrong CRC makes it a frame
whose CRC fails (R186); otherwise its kind byte decides (R98). -/
def frameCommand (l : Link) (bytes : List Byte) : Instr :=
  let body := bytes.take (bytes.length - 2)
  if sizeFramed bytes.length ∧ sealFrame body = bytes then
    match l with
    | .trunk => hostFrame bytes.length body
    | .branch p => moduleFrame p bytes.length body
  else .crcError l

/-- The link a frame arrives on, its size and its bytes before the CRC, for a command that is a frame's
arrival (R187). -/
def frameBody : Instr → Option (Link × Nat × List Byte)
  | .trunkIngressFrame (.write size len a data) =>
      some (.trunk, size, 0x10 :: len :: beBytes 5 a.toNat ++ data)
  | .trunkIngressFrame (.read size t len a) =>
      some (.trunk, size, 0x20 :: t :: len :: beBytes 5 a.toNat)
  | .trunkReset size => some (.trunk, size, [0xF0])
  | .syncReceived l size a b => some (l, size, [0x80, a, b])
  | .syncAckReceived l size a b => some (l, size, [0x90, a, b])
  | .creditReceived l size a b => some (l, size, [0xA0, a, b])
  | .moduleWriteArrival p size len a data =>
      some (.branch p, size, 0x10 :: len :: beBytes 4 a.toNat ++ data)
  | .branchResultArrival p size st t n data =>
      some (.branch p, size, (0x30#8 ||| st.setWidth 8) :: t :: n :: data)
  | .eventFrame p size c => some (.branch p, size, [0x40#8 ||| c.setWidth 8])
  | .dozeAck p size => some (.branch p, size, [0xB1])
  | .moduleWake p size => some (.branch p, size, [0xC0])
  | .disallowedKindFrame l size k => some (l, size, [k])
  | _ => none

/-- The bytes of a frame arrival on its link, CRC included; bytes that its fields do not give are 0 (R186, R187). -/
def frameBytes (c : Instr) : Option (Link × List Byte) :=
  (frameBody c).map fun (l, size, body) =>
    (l, sealFrame ((body ++ List.replicate (size - 2 - body.length) 0).take (size - 2)))

end Sys2Proof
end

