-- ==== Sys2Proof/Config.lean ====
section
/-! DEFINITION. The fixed figures of the KX4120 (00_scope.md section 6). The part leaves no figure to the implementation and no value free, so every constant here is the manual's. -/

namespace Sys2Proof.Config

/-- Hold slots, shared by the 24 hold lists (R23). -/
def holdSlots : Nat := 16
/-- WRITE slots of the trunk ingress queue (R126). -/
def ingressWrites : Nat := 16
/-- READ slots of the trunk ingress queue (R126). -/
def ingressReads : Nat := 8
/-- Slots of each branch egress queue (R108). -/
def egressSlots : Nat := 8
/-- Slots of each upstream-write buffer (R84). -/
def bufferSlots : Nat := 2
/-- RESULT slots of each branch, always free (R84). -/
def resultSlots : Nat := 4
/-- Slots of the general queue (R136). -/
def generalSlots : Nat := 8
/-- Records the fault log holds (R160). -/
def logRecords : Nat := 16
/-- SYNC resend interval in microseconds (R87). -/
def resendInterval : Time := 100
/-- SYNCs sent before a training fails (R91). -/
def maxSyncs : Nat := 32
/-- Retry interval from DOWN in microseconds (R92). -/
def retryInterval : Time := 10000
/-- DOZE-ACK answer limit in microseconds (R115). -/
def answerLimit : Time := 200
/-- Default ticket lifetime in microseconds (R65). -/
def defaultLifetime : Time := 50000
/-- Default head wait limit in microseconds (R59). -/
def defaultHeadWait : Time := 2000
/-- Default wake limit in microseconds (R103). -/
def defaultWakeLimit : BitVec 16 := 1000

/-- The strap default of the aperture base, 0xFF_FFFC_0000 + strap ID x 0x1_0000 (R168). -/
def strapDefault (strap : BitVec 2) : HostAddr :=
  0xFFFFFC0000#40 + strap.setWidth 40 * 0x10000#40

end Sys2Proof.Config
end

