-- ==== Sys2Proof/Machine/State.lean ====
section
/-! DEFINITION. The state of the KX4120 as plain data, the reasons a step can stop, and the state right after reset. Each field cites the rule of spec/ that gives it. -/

namespace Sys2Proof.Machine

/-! ### Requests, windows and hold lists -/

/-- The mode of a window (R1). -/
inductive Mode where
  | pass | hold | refuse
  deriving DecidableEq, Repr

/-- One window record (R1). The window status is derived (R2, R3). -/
structure WindowRecord where
  enable : Bool
  mode : Mode
  readPermit : Bool
  writePermit : Bool
  /-- 0..255 as stored. -/
  port : Byte
  base : HostAddr
  limit : HostAddr
  target : ModuleAddr
  deriving DecidableEq, Repr

/-- A zeroed window record (R5). -/
def WindowRecord.zero : WindowRecord := ⟨false, .pass, false, false, 0, 0, 0, 0⟩

/-- What a request on its way to a module carries: a READ its ticket entry, a WRITE its data (R24, R108). -/
inductive ReqBody where
  | read (entry : EntryIdx)
  | write (data : List Byte)
  deriving DecidableEq, Repr

/-- A held request (R24). Its window is the one whose list holds it. -/
structure Held where
  address : HostAddr
  length : Nat
  body : ReqBody
  deriving DecidableEq, Repr

/-- A request of a branch egress queue (R108). -/
structure Queued where
  address : ModuleAddr
  length : Nat
  body : ReqBody
  deriving DecidableEq, Repr

/-- What a frame of the trunk ingress queue carries beside address and length (R41). -/
inductive HostBody where
  | read (ticket : BitVec 6)
  | write (data : List Byte)
  deriving DecidableEq, Repr

/-- A frame of the trunk ingress queue (R41). -/
structure HostFrame where
  address : HostAddr
  length : Nat
  body : HostBody
  deriving DecidableEq, Repr

/-- A WRITE toward the host: of an upstream-write buffer (R123) or of the general queue (R136). -/
structure UpWrite where
  address : HostAddr
  length : Nat
  data : List Byte
  deriving DecidableEq, Repr

/-! ### The ticket table -/

/-- A RESULT status of the router (R61, R187). -/
inductive Status where
  | ok | unclaimed | refused | expired | damaged
  deriving DecidableEq, Repr

/-- The port and downstream address an entry records from QUEUED on (R61). -/
structure Route where
  port : PortIdx
  address : ModuleAddr
  deriving DecidableEq, Repr

/-- The state of a live ticket entry with the fields present in it (R61). -/
inductive Stage where
  | held
  | queued (r : Route)
  | sent (r : Route)
  | replying (r : Option Route) (status : Status) (data : List Byte)
  deriving DecidableEq, Repr

/-- What a live ticket entry holds (R61). -/
structure Live where
  ticket : BitVec 6
  window : Option WindowIdx
  address : HostAddr
  length : Nat
  deadline : Time
  stage : Stage
  deriving DecidableEq, Repr

/-- A ticket entry: its epoch always, and the rest while it is live (R61). -/
structure Entry where
  epoch : BitVec 2
  live : Option Live
  deriving DecidableEq, Repr

/-! ### The request decoder and trunk egress -/

/-- The one shared slot the decoder waits for (R40). -/
inductive Claim where
  | noClaim
  | egress (p : PortIdx)
  | general
  deriving DecidableEq, Repr

/-- The decoder's own items (R40); its head is the first frame of the trunk ingress queue. -/
structure Decoder where
  deadline : Option Time
  claim : Claim
  lastWindow : Option WindowIdx
  deriving DecidableEq, Repr

/-- The decoder without a head (R60). -/
def Decoder.clear : Decoder := ⟨none, .noClaim, none⟩

/-- A frame of the general queue (R136). -/
inductive GeneralFrame where
  | result (ticket : BitVec 6) (status : Status) (data : List Byte)
  | write (w : UpWrite)
  | notice (vector : Byte)
  deriving DecidableEq, Repr

/-- The two lanes of trunk egress (R138). -/
inductive Lane where
  | reply | general
  deriving DecidableEq, Repr

/-- The claimants of the general queue (R140). -/
inductive Claimant where
  | decoder
  | branch (p : PortIdx)
  | eventUnit
  deriving DecidableEq, Repr

/-! ### The event unit and the fault log -/

/-- The states of an event line (R145). -/
inductive LineState where
  | idle | pending | notified | again
  deriving DecidableEq, Repr

/-- An event line (R145). -/
structure EventLine where
  enable : Bool
  vector : Byte
  state : LineState
  arrivals : Byte
  deriving DecidableEq, Repr

/-- A line after a reset (R158). -/
def EventLine.zero : EventLine := ⟨false, 0, .idle, 0⟩

/-- The 23 fault kinds (09_fault_log.md section 9.2). -/
inductive FaultKind where
  | noWindow | crossing | notPermitted | windowRefused | windowDisabled | portUnavailable
  | ticketReuse | headStall | creditOverrun | crcError | frameInvalid | staleResult
  | resultLength | expired | flush | trainingFail | signalLost | dozeNoAnswer | wakeFail
  | upWriteBlocked | upWriteRange | mgmtForm | windowInvalid
  deriving DecidableEq, Repr

/-- The source of a fault record (R159). -/
inductive FaultSource where
  | trunk
  | branch (p : PortIdx)
  | decoder
  | tickets
  | management
  deriving DecidableEq, Repr

/-- The count item of a fault record: one number, or the pair of a FLUSH (R159). -/
inductive FaultCount where
  | one (n : BitVec 16)
  | pair (answered dropped : Byte)
  deriving DecidableEq, Repr

/-- A fault record (R159). -/
structure FaultRecord where
  kind : FaultKind
  source : FaultSource
  window : Option WindowIdx
  ticket : Option (BitVec 6)
  address : Option HostAddr
  count : Option FaultCount
  time : Time
  deriving DecidableEq, Repr

/-! ### Links and ports -/

/-- A frame the router transmits, each as R187 fills it. -/
inductive TxFrame where
  | sync (a b : Byte)
  | syncAck (a b : Byte)
  | credit (a b : Byte)
  | dozeReq
  | wake
  | moduleWrite (address : ModuleAddr) (data : List Byte)
  | moduleRead (branchTicket : BitVec 6) (length : Nat) (address : ModuleAddr)
  | result (ticket : BitVec 6) (status : Status) (data : List Byte)
  | hostWrite (address : HostAddr) (data : List Byte)
  | notice (vector : Byte)
  deriving DecidableEq, Repr

/-- The router's end of a link (R83). Class A is the first send or receive class of the link and class B
the second: the trunk sends INBOUND (A) and receives WRITE (A) and READ (B); a branch sends WRITE (A) and
READ (B) and receives WRITE (A) and RESULT (B) (R84). -/
structure LinkEnd where
  syncsSent : Nat
  resend : Option Time
  retry : Option Time
  adoptedA : Byte
  adoptedB : Byte
  sentA : Byte
  sentB : Byte
  reportedA : Byte
  reportedB : Byte
  consumedA : Byte
  consumedB : Byte
  creditPending : Bool
  syncAckDue : Bool
  /-- The model's own: a SYNC waits for the frame in transmission to end (R87, log 6). -/
  syncDue : Bool
  /-- The frame in transmission (R95). -/
  transmitting : Option TxFrame
  framesOut : Counter
  framesIn : Counter
  crcErrors : Counter
  framesDiscarded : Counter
  /-- Whether the receiver reports its signal present (R190). -/
  signal : Bool
  deriving DecidableEq, Repr

/-- A link end with nothing under way and its counts 0. -/
def LinkEnd.zero : LinkEnd :=
  ⟨0, none, none, 0, 0, 0, 0, 0, 0, 0, 0, false, false, false, none, 0, 0, 0, 0, true⟩

/-- The states of the trunk link (R83). -/
inductive LinkState where
  | down | training | up
  deriving DecidableEq, Repr

/-- The states of a branch port (R102). -/
inductive PortState where
  | off | down | training | up | dozeWait | doze | waking
  deriving DecidableEq, Repr

/-- The last command result of a port (R107). -/
inductive CommandResult where
  | none | accepted | ignored
  deriving DecidableEq, Repr

/-- A branch port (R102 to R108). -/
structure PortBlock where
  state : PortState
  link : LinkEnd
  upWriteEnable : Bool
  /-- 0..255 ms (R104). -/
  autoDoze : BitVec 16
  /-- 10..65,535 microseconds (R104). -/
  wakeLimit : BitVec 16
  upOffset : HostAddr
  dozeRequested : Bool
  lastResult : CommandResult
  queue : List Queued
  buffer : List UpWrite
  answer : Option Time
  wake : Option Time
  idle : Option Time
  dozeReqDue : Bool
  wakeDue : Bool
  stale : Counter
  deriving DecidableEq, Repr

/-- A port after a reset, its receiver reporting `signal` (R103). -/
def PortBlock.off (signal : Bool) : PortBlock :=
  ⟨.off, { LinkEnd.zero with signal := signal }, false, 0, Config.defaultWakeLimit, 0, false, .none,
    [], [], none, none, none, false, false, 0⟩

/-! ### The state -/

/-- The whole state of the router and the queue of commands that wait for it. -/
structure State where
  /-- The level of POR_N (R184). -/
  porN : Bool
  /-- The strap ID sampled at the last power-on (R168). -/
  strapId : BitVec 2
  /-- Router time (R176). -/
  time : Time
  apertureBase : HostAddr
  ticketLifetime : Time
  headWaitLimit : Time
  windows : Vector WindowRecord 24
  holdLists : Vector (List Held) 24
  ingress : List HostFrame
  decoder : Decoder
  entries : Vector Entry 16
  /-- For each port its entries in SENT, in the order their READs were transmitted (R68). -/
  sentOrder : Vector (List EntryIdx) 4
  trunkState : LinkState
  trunk : LinkEnd
  ports : Vector PortBlock 4
  /-- The entries in REPLYING in the order they entered it (R75, R135). -/
  replyLane : List EntryIdx
  generalQueue : List GeneralFrame
  laneLast : Lane
  arbLast : Claimant
  lines : Vector EventLine 33
  lastLine : LineIdx
  faultLog : List FaultRecord
  dropped : BitVec 16
  /-- The model's own: the commands that wait, first in, first out. -/
  pending : List Instr
  deriving DecidableEq, Repr

/-- Every block at its power-on values, the trunk not yet training (R184, R185). -/
def State.blank (porN : Bool) (strap : BitVec 2) (pending : List Instr) : State where
  porN := porN
  strapId := strap
  time := 0
  apertureBase := Config.strapDefault strap
  ticketLifetime := Config.defaultLifetime
  headWaitLimit := Config.defaultHeadWait
  windows := Vector.replicate 24 .zero
  holdLists := Vector.replicate 24 []
  ingress := []
  decoder := .clear
  entries := Vector.replicate 16 ⟨0, none⟩
  sentOrder := Vector.replicate 4 []
  trunkState := .down
  trunk := .zero
  ports := Vector.replicate 4 (.off true)
  replyLane := []
  generalQueue := []
  laneLast := .general
  arbLast := .eventUnit
  lines := Vector.replicate 33 .zero
  lastLine := 32
  faultLog := []
  dropped := 0
  pending := pending

/-- The machine right after POR_N is released with both strap pins low: the trunk is in TRAINING and its
first SYNC, with A = 16 and B = 8, is in transmission (R185, log 1). -/
def State.reset : State :=
  { State.blank true 0 [] with
    trunkState := .training
    trunk := { LinkEnd.zero with
      syncsSent := 1
      resend := some Config.resendInterval
      transmitting := some (.sync 16 8)
      framesOut := 1 } }

/-- No rule of the manual stops the router, so a fault of the step has no constructor; what the manual
calls a fault is a record of the fault log (R160). -/
inductive Fault where
  deriving DecidableEq, Repr

/-- Reasons for a refusal. -/
inductive Refusal where
  /-- Raised by `exec` for a command that has no meaning yet; safe. No arm raises it. -/
  | notModelled (mnemonic : String)
  deriving DecidableEq, Repr

end Sys2Proof.Machine
end

