-- ==== Sys2Proof/Machine/Frames.lean ====
section
/-! DEFINITION. The frames of the links: codes, the bytes of each frame the router transmits (R187), and the field checks of R98 on each frame it receives. -/

namespace Sys2Proof.Machine

/-- The RESULT status codes (R187). -/
def Status.code : Status → Nat
  | .ok => 0
  | .unclaimed => 1
  | .refused => 2
  | .expired => 3
  | .damaged => 4

/-- The bytes of a transmitted frame before its CRC (R187). A RESULT carries its data count, a WRITE its length. -/
def TxFrame.body : TxFrame → List Byte
  | .sync a b => [0x80, a, b]
  | .syncAck a b => [0x90, a, b]
  | .credit a b => [0xA0, a, b]
  | .dozeReq => [0xB0]
  | .wake => [0xC0]
  | .moduleWrite a data => 0x10 :: BitVec.ofNat 8 data.length :: beBytes 4 a.toNat ++ data
  | .moduleRead t len a => 0x20 :: t.setWidth 8 :: BitVec.ofNat 8 len :: beBytes 4 a.toNat
  | .result t st data =>
      BitVec.ofNat 8 (0x30 + st.code) :: t.setWidth 8 :: BitVec.ofNat 8 data.length :: data
  | .hostWrite a data => 0x10 :: BitVec.ofNat 8 data.length :: beBytes 5 a.toNat ++ data
  | .notice v => [0x50, v]

/-- The bytes of a transmitted frame, CRC included (R186, R187). -/
def TxFrame.bytes (f : TxFrame) : List Byte := sealFrame f.body

/-- The checks of R98 on a WRITE whose layout has `header` bytes beside its data (R187). -/
def validWrite (size header : Nat) (length : Byte) (data : List Byte) : Bool :=
  1 ≤ length.toNat && length.toNat ≤ 64 && size == header + length.toNat && data.length == length.toNat

/-- The checks of R98 on a READ or WRITE of the host. -/
def validRequest : TrunkRequest → Bool
  | .read size ticket length _ =>
      1 ≤ length.toNat && length.toNat ≤ 64 && ticket.toNat < 64 && size == 10
  | .write size length _ data => validWrite size 9 length data

/-- The kind byte of a host request (R98). -/
def requestKind : TrunkRequest → Byte
  | .read .. => 0x20
  | .write .. => 0x10

/-- The frame that enters the trunk ingress queue (R41). -/
def requestFrame : TrunkRequest → HostFrame
  | .read _ ticket length a => ⟨a, length.toNat, .read (ticket.setWidth 6)⟩
  | .write _ length a data => ⟨a, length.toNat, .write data⟩

/-- The checks of R98 on a RESULT of a module. -/
def validResult (size : Nat) (ticket count : Byte) (data : List Byte) : Bool :=
  ticket.toNat < 64 && count.toNat ≤ 64 && size == 5 + count.toNat && data.length == count.toNat

/-- The checks of R98 on a SYNC or SYNC-ACK: A and B to 32 on a branch; A to 64 and B not checked on the trunk. -/
def validSync (l : Link) (size : Nat) (a b : Byte) : Bool :=
  size == 5 &&
    match l with
    | .trunk => a.toNat ≤ 64
    | .branch _ => a.toNat ≤ 32 && b.toNat ≤ 32

/-- The comparison of R94 for one send class: the partner reports no more consumed than was sent. -/
def creditFits (n reported sent : Byte) : Bool := (n - reported).toNat ≤ (sent - reported).toNat

/-- The checks of R94 and R98 on a CREDIT; on the trunk only A is compared. -/
def validCredit (l : Link) (e : LinkEnd) (size : Nat) (a b : Byte) : Bool :=
  size == 5 && creditFits a e.reportedA e.sentA &&
    match l with
    | .trunk => true
    | .branch _ => creditFits b e.reportedB e.sentB

end Sys2Proof.Machine
end

