-- ==== Sys2Proof/Machine/Flags.lean ====
section
/-! DEFINITION. Named access to the state, and every condition the rules derive from it: window states, idleness, credit, free capacities, what a link receives, and whether a deadline is reached. -/

namespace Sys2Proof.Machine

/-! ### Access -/

def State.port (s : State) (p : PortIdx) : PortBlock := s.ports[p]
def State.setPort (s : State) (p : PortIdx) (b : PortBlock) : State :=
  { s with ports := s.ports.set p.val b p.isLt }
def State.modPort (s : State) (p : PortIdx) (f : PortBlock → PortBlock) : State := s.setPort p (f (s.port p))

def State.window (s : State) (w : WindowIdx) : WindowRecord := s.windows[w]
def State.setWindow (s : State) (w : WindowIdx) (r : WindowRecord) : State :=
  { s with windows := s.windows.set w.val r w.isLt }

def State.holdList (s : State) (w : WindowIdx) : List Held := s.holdLists[w]
def State.setHoldList (s : State) (w : WindowIdx) (h : List Held) : State :=
  { s with holdLists := s.holdLists.set w.val h w.isLt }

def State.entry (s : State) (i : EntryIdx) : Entry := s.entries[i]
def State.setEntry (s : State) (i : EntryIdx) (e : Entry) : State :=
  { s with entries := s.entries.set i.val e i.isLt }

def State.sentOf (s : State) (p : PortIdx) : List EntryIdx := s.sentOrder[p]
def State.setSentOf (s : State) (p : PortIdx) (o : List EntryIdx) : State :=
  { s with sentOrder := s.sentOrder.set p.val o p.isLt }

def State.line (s : State) (i : LineIdx) : EventLine := s.lines[i]
def State.setLine (s : State) (i : LineIdx) (l : EventLine) : State :=
  { s with lines := s.lines.set i.val l i.isLt }

/-- The router's end of a link (R83). -/
def State.linkEnd (s : State) : Link → LinkEnd
  | .trunk => s.trunk
  | .branch p => (s.port p).link

def State.setLink (s : State) : Link → LinkEnd → State
  | .trunk, e => { s with trunk := e }
  | .branch p, e => s.setPort p { s.port p with link := e }

def State.modLink (s : State) (l : Link) (f : LinkEnd → LinkEnd) : State := s.setLink l (f (s.linkEnd l))

/-- A function applied to every element of a vector. -/
def mapVec {α β : Type} {n : Nat} (f : α → β) (v : Vector α n) : Vector β n :=
  ⟨⟨v.toList.map f⟩, by simp⟩

/-! ### Time -/

/-- A deadline is reached: it is present, and router time is equal to it or has passed it by less than 2^31 (00_scope.md section 5, log 4). -/
def State.reached (s : State) : Option Time → Bool
  | some t => (s.time - t).toNat < 2 ^ 31
  | none => false

/-! ### Windows and hold lists -/

/-- The port that serves a window; an enabled record names 0..3 (R8). -/
def WindowRecord.portIdx (r : WindowRecord) : PortIdx := Fin.ofNat 4 r.port.toNat

/-- Whether a record's range contains an address (R1). -/
def WindowRecord.contains (r : WindowRecord) (a : HostAddr) : Bool :=
  r.base.toNat ≤ a.toNat && a.toNat ≤ r.limit.toNat

/-- A request's last byte, in whole numbers without wrap (R13). -/
def lastByte (a : HostAddr) (length : Nat) : Nat := a.toNat + length - 1

/-- Whether a request's last byte lies outside the range (R13). -/
def WindowRecord.crosses (r : WindowRecord) (a : HostAddr) (length : Nat) : Bool :=
  !(r.base.toNat ≤ lastByte a length && lastByte a length ≤ r.limit.toNat)

/-- The downstream address of a request (R16). -/
def WindowRecord.translate (r : WindowRecord) (a : HostAddr) : ModuleAddr :=
  (a - r.base).setWidth 32 + r.target

/-- The five window states (R3). -/
inductive WindowState where
  | disabled | pass | drain | hold | refuse
  deriving DecidableEq, Repr

/-- A window's state, derived from enable, mode and hold list (R3). -/
def State.windowState (s : State) (w : WindowIdx) : WindowState :=
  let r := s.window w
  if r.enable then
    match r.mode with
    | .pass => if (s.holdList w).isEmpty then .pass else .drain
    | .hold => .hold
    | .refuse => .refuse
  else .disabled

/-- The hold slots in use: the sum of the 24 hold counts (R23). -/
def State.heldTotal (s : State) : Nat := (s.holdLists.toList.map List.length).sum

/-- The matching window of an address: the lowest-numbered enabled window that contains it (R12). -/
def State.lookup (s : State) (a : HostAddr) : Option WindowIdx :=
  (List.finRange 24).find? fun w => (s.window w).enable && (s.window w).contains a

/-- Whether an address lies inside the management aperture (R11, R167). -/
def State.inAperture (s : State) (a : HostAddr) : Bool :=
  s.apertureBase.toNat ≤ a.toNat && a.toNat ≤ s.apertureBase.toNat + 0xFFFF

/-! ### Ticket entries -/

def Stage.isReplying : Stage → Bool
  | .replying .. => true
  | _ => false

/-- The port and downstream address of a stage, where present (R61). -/
def Stage.route : Stage → Option Route
  | .held => none
  | .queued r => some r
  | .sent r => some r
  | .replying r _ _ => r

/-- Whether an entry in QUEUED or SENT names the port (R113). -/
def Entry.worksFor (e : Entry) (p : PortIdx) : Bool :=
  match e.live with
  | some v =>
    match v.stage with
    | .queued r => r.port == p
    | .sent r => r.port == p
    | _ => false
  | none => false

/-- The lowest-numbered FREE entry (R63). -/
def State.freeEntry (s : State) : Option EntryIdx :=
  (List.finRange 16).find? fun i => (s.entry i).live.isNone

/-- Whether a host ticket is live (R43). -/
def State.ticketLive (s : State) (t : BitVec 6) : Bool :=
  s.entries.toList.any fun e => e.live.any fun v => v.ticket == t

/-- The branch ticket of an entry: its index times 4 plus its epoch (R64). -/
def State.branchTicket (s : State) (i : EntryIdx) : BitVec 6 :=
  BitVec.ofNat 6 (i.val * 4 + (s.entry i).epoch.toNat)

/-- The host ticket of a live entry. -/
def State.ticketOf (s : State) (i : EntryIdx) : Option (BitVec 6) := (s.entry i).live.map (·.ticket)

/-! ### Links -/

/-- The two credit classes of a direction (R84). -/
inductive CreditClass where
  | a | b
  deriving DecidableEq, Repr

def ReqBody.isRead : ReqBody → Bool
  | .read _ => true
  | .write _ => false

def HostBody.isRead : HostBody → Bool
  | .read _ => true
  | .write _ => false

/-- WRITE is class A, READ class B (R84). -/
def ReqBody.cls : ReqBody → CreditClass
  | .read _ => .b
  | .write _ => .a

def HostBody.cls : HostBody → CreditClass
  | .read _ => .b
  | .write _ => .a

/-- The credit of a send class: adopted capacity plus reported consumption less sent count, modulo 256 (R95). -/
def LinkEnd.credit (e : LinkEnd) : CreditClass → Byte
  | .a => e.adoptedA + e.reportedA - e.sentA
  | .b => e.adoptedB + e.reportedB - e.sentB

/-- The router's free capacity of receive class A (R84, R127). -/
def State.freeA (s : State) : Link → Nat
  | .trunk => Config.ingressWrites - (s.ingress.filter fun f => !f.body.isRead).length
  | .branch p => Config.bufferSlots - (s.port p).buffer.length

/-- The router's free capacity of receive class B (R84, R127). -/
def State.freeB (s : State) : Link → Nat
  | .trunk => Config.ingressReads - (s.ingress.filter fun f => f.body.isRead).length
  | .branch _ => Config.resultSlots

/-- UP, or DOZE_WAIT, where the rules of UP apply (R102): consumption sets CREDIT pending (R93, R115), and a
SYNC-ACK or CREDIT that is due is transmitted (R95, R115). -/
def State.linkLive (s : State) : Link → Bool
  | .trunk => s.trunkState == .up
  | .branch p => (s.port p).state == .up || (s.port p).state == .dozeWait

/-- Whether a link is in TRAINING (R83). -/
def State.linkTraining (s : State) : Link → Bool
  | .trunk => s.trunkState == .training
  | .branch p => (s.port p).state == .training

/-- Whether a link is in DOWN (R83). -/
def State.linkDown (s : State) : Link → Bool
  | .trunk => s.trunkState == .down
  | .branch p => (s.port p).state == .down

/-- How a link treats a frame that arrives (R92, R97, R102, R119, R120). -/
inductive RxPhase where
  | deaf | training | live | doze | waking
  deriving DecidableEq, Repr

/-- What a link does with a frame that arrives: nothing while POR_N is low (R184), while its receiver's
signal is absent (R190) and in OFF and DOWN (R92, R102). -/
def State.rxPhase (s : State) (l : Link) : RxPhase :=
  if s.porN && (s.linkEnd l).signal then
    match l with
    | .trunk =>
      match s.trunkState with
      | .down => .deaf
      | .training => .training
      | .up => .live
    | .branch p =>
      match (s.port p).state with
      | .off => .deaf
      | .down => .deaf
      | .training => .training
      | .up => .live
      | .dozeWait => .live
      | .doze => .doze
      | .waking => .waking
  else .deaf

/-- A link's transmitter is free (R95). -/
def State.txFree (s : State) (l : Link) : Bool := (s.linkEnd l).transmitting.isNone

/-- A SYNC-ACK or CREDIT goes ahead of every other frame of a live link (R95). -/
def State.controlDue (s : State) (l : Link) : Bool :=
  s.linkLive l && ((s.linkEnd l).syncAckDue || (s.linkEnd l).creditPending)

/-- The source of a link's fault records (R159). -/
def linkSource : Link → FaultSource
  | .trunk => .trunk
  | .branch p => .branch p

/-! ### Ports and event lines -/

/-- A port in this state passes the port check and is granted slots (R46, R108). -/
def PortState.accepts : PortState → Bool
  | .off => false
  | .down => false
  | _ => true

/-- A port is idle (R113). -/
def State.portIdle (s : State) (p : PortIdx) : Bool :=
  (s.port p).queue.isEmpty && (s.port p).buffer.isEmpty && s.entries.toList.all fun e => !e.worksFor p

/-- A free slot of a port's branch egress queue that may be granted (R34, R108). -/
def State.egressFree (s : State) (p : PortIdx) : Bool :=
  (s.port p).state.accepts && (s.port p).queue.length < Config.egressSlots

/-- A line is eligible while it is PENDING and enabled (R148). -/
def EventLine.eligible (l : EventLine) : Bool := l.enable && l.state == .pending

/-- The first eligible line after the last served line, in the order 0, 1, .., 32, 0 (R149). -/
def State.nextLine (s : State) : Option LineIdx :=
  ((List.finRange 33).map fun k => s.lastLine + 1 + k).find? fun i => (s.line i).eligible

/-- A general queue slot that may be granted (R141). -/
def State.generalFree (s : State) : Bool :=
  s.trunkState == .up && s.generalQueue.length < Config.generalSlots

end Sys2Proof.Machine
end

