-- ==== Sys2Proof/Machine/Operands.lean ====
section
/-! DEFINITION. The management aperture as a map of records: the record at an offset (R170), the access forms (R171), the fields a WRITE covers, and the bytes a READ returns (R174, R175, R188, R189). -/

namespace Sys2Proof.Machine

/-! ### The record map -/

/-- The records of the aperture (R170). -/
inductive RecordId where
  | identity
  | control
  | routerTime
  | port (p : PortIdx)
  | trunk
  | window (w : WindowIdx)
  | view (i : EntryIdx)
  | line (i : LineIdx)
  | logHead
  | logControl
  deriving DecidableEq, Repr

/-- The offset of a record (R170). -/
def RecordId.offset : RecordId → Nat
  | .identity => 0x0000
  | .control => 0x0040
  | .routerTime => 0x0080
  | .port p => 0x1000 + 0x100 * p.val
  | .trunk => 0x1400
  | .window w => 0x2000 + 0x20 * w.val
  | .view i => 0x3000 + 0x20 * i.val
  | .line i => 0x4000 + 0x08 * i.val
  | .logHead => 0x5000
  | .logControl => 0x5020

/-- The size of a record in bytes (R170). -/
def RecordId.size : RecordId → Nat
  | .identity => 16
  | .control => 20
  | .routerTime => 4
  | .port _ => 48
  | .trunk => 24
  | .window _ => 32
  | .view _ => 32
  | .line _ => 8
  | .logHead => 32
  | .logControl => 12

/-- The record whose extent contains an offset, if any (R170). -/
def recordAt (off : Nat) : Option RecordId :=
  let inside := fun (r : RecordId) =>
    if r.offset ≤ off ∧ off < r.offset + r.size then some r else none
  if off < 0x40 then inside .identity
  else if off < 0x80 then inside .control
  else if off < 0x1000 then inside .routerTime
  else if off < 0x1400 then inside (.port (Fin.ofNat 4 ((off - 0x1000) / 0x100)))
  else if off < 0x2000 then inside .trunk
  else if off < 0x3000 then inside (.window (Fin.ofNat 24 ((off - 0x2000) / 0x20)))
  else if off < 0x4000 then inside (.view (Fin.ofNat 16 ((off - 0x3000) / 0x20)))
  else if off < 0x5000 then inside (.line (Fin.ofNat 33 ((off - 0x4000) / 0x08)))
  else if off < 0x5020 then inside .logHead
  else inside .logControl

/-! ### Access forms -/

/-- Conditions 1 to 3 of R171: the record that a request of this offset and length lies in, and the offset
inside it. -/
def readForm (off len : Nat) : Option (RecordId × Nat) :=
  if off % 4 = 0 ∧ len % 4 = 0 then
    match recordAt off with
    | some r => if off + len ≤ r.offset + r.size then some (r, off - r.offset) else none
    | none => none
  else none

/-- A WRITE of `len` bytes at record offset `at'` covers the whole of a field or none of it (R171). -/
def wholeField (at' len field size : Nat) : Bool :=
  at' + len ≤ field || field + size ≤ at' || (at' ≤ field && field + size ≤ at' + len)

/-- All the conditions of R171 on a WRITE. -/
def writeForm (off len : Nat) : Option (RecordId × Nat) :=
  match readForm off len with
  | none => none
  | some (r, at') =>
    let whole : Bool := match r with
      | .window _ => at' == 0 && len == 32
      | .control => wholeField at' len 0x00 8
      | .port _ => wholeField at' len 0x10 8
      | _ => true
    if whole then some (r, at') else none

/-- The value that a WRITE of `data` at record offset `at'` carries for a field, if it covers the field. -/
def fieldOf (at' : Nat) (data : List Byte) (field size : Nat) : Option Nat :=
  if at' ≤ field ∧ field + size ≤ at' + data.length then some (beNat ((data.drop (field - at')).take size)) else none

/-- The window whose record contains an offset, for an MGMT_FORM record (R173). -/
def windowAt (off : Nat) : Option WindowIdx :=
  if 0x2000 ≤ off ∧ off < 0x2300 then some (Fin.ofNat 24 ((off - 0x2000) / 0x20)) else none

/-! ### Codes (R188, 09_fault_log.md section 9.2) -/

def bit (b : Bool) (k : Nat) : Nat := if b then 2 ^ k else 0

def Mode.code : Mode → Nat
  | .pass => 0
  | .hold => 1
  | .refuse => 2

/-- The mode that a mode byte names (R188). -/
def modeOf (b : Byte) : Option Mode :=
  if b = 0 then some .pass else if b = 1 then some .hold else if b = 2 then some .refuse else none

def WindowState.code : WindowState → Nat
  | .disabled => 0
  | .pass => 1
  | .drain => 2
  | .hold => 3
  | .refuse => 4

def Stage.code : Stage → Nat
  | .held => 1
  | .queued _ => 2
  | .sent _ => 3
  | .replying .. => 4

def LinkState.code : LinkState → Nat
  | .down => 0
  | .training => 1
  | .up => 2

def PortState.code : PortState → Nat
  | .off => 0
  | .down => 1
  | .training => 2
  | .up => 3
  | .dozeWait => 4
  | .doze => 5
  | .waking => 6

def CommandResult.code : CommandResult → Nat
  | .none => 0
  | .accepted => 1
  | .ignored => 2

def LineState.code : LineState → Nat
  | .idle => 0
  | .pending => 1
  | .notified => 2
  | .again => 3

def FaultKind.code : FaultKind → Nat
  | .noWindow => 1
  | .crossing => 2
  | .notPermitted => 3
  | .windowRefused => 4
  | .windowDisabled => 5
  | .portUnavailable => 6
  | .ticketReuse => 7
  | .headStall => 8
  | .creditOverrun => 9
  | .crcError => 10
  | .frameInvalid => 11
  | .staleResult => 12
  | .resultLength => 13
  | .expired => 14
  | .flush => 15
  | .trainingFail => 16
  | .signalLost => 17
  | .dozeNoAnswer => 18
  | .wakeFail => 19
  | .upWriteBlocked => 20
  | .upWriteRange => 21
  | .mgmtForm => 22
  | .windowInvalid => 23

def FaultSource.code : FaultSource → Nat
  | .trunk => 1
  | .branch p => 2 + p.val
  | .decoder => 6
  | .tickets => 7
  | .management => 8

/-! ### The bytes of each record -/

/-- One byte holding a number below 256. -/
def byte (n : Nat) : Byte := BitVec.ofNat 8 n

/-- `n` bytes that hold no field (R188). -/
def pad (n : Nat) : List Byte := List.replicate n 0

/-- The identity record (R175, R189). -/
def identityBytes (s : State) : List Byte :=
  [0xD6, 0xA3, 0x41, 0x20, 0x01, s.strapId.setWidth 8, 24, 16, 16, 16, 8, 8, 2, 8, 33, 16]

/-- The router control record, its command reading as 0 (R177, R189). -/
def controlBytes (s : State) : List Byte :=
  beBytes 8 s.apertureBase.toNat ++ beBytes 4 s.ticketLifetime.toNat ++ beBytes 4 s.headWaitLimit.toNat ++ pad 4

/-- The four link counters in record order (R189). -/
def counterBytes (e : LinkEnd) : List Byte :=
  beBytes 4 e.framesOut.toNat ++ beBytes 4 e.framesIn.toNat ++ beBytes 4 e.crcErrors.toNat ++
    beBytes 4 e.framesDiscarded.toNat

/-- A branch port record, its command reading as 0 (R107, R189). -/
def portBytes (b : PortBlock) : List Byte :=
  [byte (bit (b.state ≠ .off) 0), byte (bit b.upWriteEnable 0)] ++ beBytes 2 b.autoDoze.toNat ++
  beBytes 2 b.wakeLimit.toNat ++ pad 2 ++ pad 4 ++
  [byte b.state.code, byte (bit b.dozeRequested 0), byte b.lastResult.code, byte b.queue.length] ++
  beBytes 8 b.upOffset.toNat ++ [byte b.buffer.length] ++ pad 3 ++ counterBytes b.link ++ beBytes 4 b.stale.toNat

/-- The trunk record (R129, R189). -/
def trunkBytes (s : State) : List Byte :=
  [byte s.trunkState.code, byte (s.ingress.filter fun f => !f.body.isRead).length,
   byte (s.ingress.filter fun f => f.body.isRead).length, byte s.replyLane.length, byte s.generalQueue.length,
   if s.trunkState = .up then s.trunk.credit .a else 0] ++ pad 2 ++ counterBytes s.trunk

/-- A window record with its status (R2, R188). -/
def windowBytes (s : State) (w : WindowIdx) : List Byte :=
  let r := s.window w
  [byte (bit r.enable 0 + bit r.readPermit 1 + bit r.writePermit 2), byte r.mode.code, r.port,
   byte (s.windowState w).code, byte (s.holdList w).length] ++ pad 3 ++
  beBytes 5 r.base.toNat ++ pad 3 ++ beBytes 5 r.limit.toNat ++ pad 3 ++ beBytes 4 r.target.toNat ++ pad 4

/-- The ticket view of an entry (R81, R82, R188). -/
def viewBytes (s : State) (i : EntryIdx) : List Byte :=
  let e := s.entry i
  let bt := (s.branchTicket i).setWidth 8
  match e.live with
  | none => [0, e.epoch.setWidth 8, bt] ++ pad 29
  | some v =>
    let reply := match v.stage with
      | .replying _ st _ => some st
      | _ => none
    let r := v.stage.route
    [byte v.stage.code, e.epoch.setWidth 8, bt,
     byte (bit v.window.isSome 0 + bit r.isSome 1 + bit reply.isSome 2), v.ticket.setWidth 8, byte v.length,
     byte ((v.window.map (·.val)).getD 0), byte ((r.map (·.port.val)).getD 0)] ++
    beBytes 5 v.address.toNat ++ [byte ((reply.map (·.code)).getD 0)] ++ pad 2 ++
    beBytes 4 ((r.map (·.address.toNat)).getD 0) ++ beBytes 4 v.deadline.toNat ++ pad 8

/-- An event line record, its command reading as 0 (R154, R189). -/
def lineBytes (l : EventLine) : List Byte :=
  [byte (bit l.enable 0), l.vector] ++ pad 2 ++ [0, byte l.state.code, l.arrivals, 0]

/-- The count item of a fault record in its two bytes (R188). -/
def countBytes : Option FaultCount → List Byte
  | none => pad 2
  | some (.one n) => beBytes 2 n.toNat
  | some (.pair a d) => [a, d]

/-- The fault log head record (R162, R188). -/
def logHeadBytes (s : State) : List Byte :=
  match s.faultLog with
  | [] => pad 32
  | r :: _ =>
    [byte r.kind.code, byte r.source.code,
     byte (bit r.window.isSome 0 + bit r.ticket.isSome 1 + bit r.address.isSome 2 + bit r.count.isSome 3),
     byte ((r.window.map (·.val)).getD 0), (r.ticket.getD 0).setWidth 8] ++ pad 3 ++
    beBytes 5 (r.address.getD 0).toNat ++ pad 3 ++ countBytes r.count ++ pad 2 ++ beBytes 4 r.time.toNat ++ pad 8

/-- The fault log control record, its command reading as 0 (R163, R189). -/
def logControlBytes (s : State) : List Byte :=
  beBytes 4 s.faultLog.length ++ beBytes 4 s.dropped.toNat ++ pad 4

/-- The bytes of a record as it stands (R174). -/
def recordBytes (s : State) : RecordId → List Byte
  | .identity => identityBytes s
  | .control => controlBytes s
  | .routerTime => beBytes 4 s.time.toNat
  | .port p => portBytes (s.port p)
  | .trunk => trunkBytes s
  | .window w => windowBytes s w
  | .view i => viewBytes s i
  | .line i => lineBytes (s.line i)
  | .logHead => logHeadBytes s
  | .logControl => logControlBytes s

/-- The bytes that a management READ of this offset and length returns, if it is well formed (R171, R174). -/
def readBytes (s : State) (off len : Nat) : Option (List Byte) :=
  (readForm off len).map fun (r, at') => ((recordBytes s r).drop at').take len

end Sys2Proof.Machine
end

