-- ==== Sys2Proof/Machine/Ops.lean ====
section
/-! DEFINITION. The operations the meanings share, each one block's part of a happening: link ends, ticket entries, event line arrivals, the admission arbiter, the fault log and port idleness. -/

namespace Sys2Proof.Machine

/-- While POR_N is low no command but its release has an effect (R184). -/
def whenPowered (f : State → State) (s : State) : State := if s.porN then f s else s

/-! ### Link ends -/

/-- A frame that passes its CRC counts in frames in (R97, R101). -/
def LinkEnd.countIn (e : LinkEnd) : LinkEnd := { e with framesIn := e.framesIn + 1 }

/-- A discarded frame counts in frames discarded (R101). -/
def LinkEnd.countDiscard (e : LinkEnd) : LinkEnd := { e with framesDiscarded := e.framesDiscarded + 1 }

/-- A consumed frame counts in its class, modulo 256 (R93). -/
def LinkEnd.consume (e : LinkEnd) : CreditClass → LinkEnd
  | .a => { e with consumedA := e.consumedA + 1 }
  | .b => { e with consumedB := e.consumedB + 1 }

/-- A frame taken by the transmitter (R95, R101). -/
def LinkEnd.transmit (e : LinkEnd) (f : TxFrame) : LinkEnd :=
  { e with transmitting := some f, framesOut := e.framesOut + 1 }

/-- A sent traffic frame counts in its class (R95). -/
def LinkEnd.countSent (e : LinkEnd) : CreditClass → LinkEnd
  | .a => { e with sentA := e.sentA + 1 }
  | .b => { e with sentB := e.sentB + 1 }

/-- The capacities of a SYNC or SYNC-ACK are adopted; sent counts and reported consumption become 0 (R88 to R90). -/
def LinkEnd.adopt (e : LinkEnd) (a b : Byte) : LinkEnd :=
  { e with adoptedA := a, adoptedB := b, sentA := 0, sentB := 0, reportedA := 0, reportedB := 0 }

/-- A consumption on a link: it counts, and sets CREDIT pending while the link is live (R93). -/
def State.consume (s : State) (l : Link) (c : CreditClass) : State :=
  s.modLink l fun e => { e.consume c with creditPending := e.creditPending || s.linkLive l }

/-- A SYNC is transmitted: free capacities, consumption counts 0, CREDIT pending cleared, one more SYNC
sent, the resend deadline 100 microseconds on (R86, R87). -/
def sendSync (l : Link) (s : State) : State :=
  s.modLink l fun e =>
    { e.transmit (.sync (BitVec.ofNat 8 (s.freeA l)) (BitVec.ofNat 8 (s.freeB l))) with
      consumedA := 0
      consumedB := 0
      creditPending := false
      syncDue := false
      syncsSent := e.syncsSent + 1
      resend := some (s.time + Config.resendInterval) }

/-- A SYNC becomes due: it is transmitted at this happening, or waits for the frame in transmission (R87). -/
def dueSync (l : Link) (s : State) : State :=
  if s.txFree l then sendSync l s else s.modLink l fun e => { e with syncDue := true, resend := none }

/-- A link's state becomes TRAINING; on a port the doze cycle and its deadlines end (R87, R111, R114, R118). -/
def setTraining : Link → State → State
  | .trunk, s => { s with trunkState := .training }
  | .branch p, s =>
    s.modPort p fun b =>
      { b with state := .training, dozeRequested := false, answer := none, wake := none, idle := none,
               dozeReqDue := false, wakeDue := false }

/-- A link enters TRAINING: no SYNC sent, CREDIT pending and a due SYNC-ACK cleared, a SYNC transmitted (R87). -/
def startTraining (l : Link) (s : State) : State :=
  dueSync l ((setTraining l s).modLink l fun e =>
    { e with syncsSent := 0, resend := none, retry := none, creditPending := false, syncAckDue := false,
             syncDue := false })

/-- A link end at entry to DOWN or OFF: nothing due, nothing in transmission, no SYNC counted (R92, R105,
R111, R130). -/
def LinkEnd.silence (e : LinkEnd) : LinkEnd :=
  { e with syncsSent := 0, resend := none, retry := none, creditPending := false, syncAckDue := false,
           syncDue := false, transmitting := none }

/-! ### Ticket entries -/

/-- An entry enters REPLYING with its answer at the tail of the reply lane, keeping port and downstream
address, and leaves its port's sent order (R61, R68, R75). An entry that is FREE or already REPLYING is
left as it is (R73). -/
def toReplying (i : EntryIdx) (st : Status) (data : List Byte) (s : State) : State :=
  match (s.entry i).live with
  | none => s
  | some v =>
    if v.stage.isReplying then s
    else
      { s.setEntry i { s.entry i with live := some { v with stage := .replying v.stage.route st data } } with
        replyLane := s.replyLane ++ [i]
        sentOrder := mapVec (fun o => o.filter (· ≠ i)) s.sentOrder }

/-- A live entry's stage changes (R66 to R68). -/
def setStage (i : EntryIdx) (st : Stage) (s : State) : State :=
  s.setEntry i { s.entry i with live := (s.entry i).live.map fun v => { v with stage := st } }

/-- The lowest-numbered FREE entry is allocated to a READ: its epoch advances, its deadline is router time
plus the ticket lifetime (R54, R63, R65). -/
def allocate (i : EntryIdx) (f : HostFrame) (ticket : BitVec 6) (w : Option WindowIdx) (st : Stage) (s : State) : State :=
  s.setEntry i
    ⟨(s.entry i).epoch + 1, some ⟨ticket, w, f.address, f.length, s.time + s.ticketLifetime, st⟩⟩

/-! ### Port idleness -/

/-- A port enters DOZE_WAIT: a DOZE-REQ becomes due, a WAKE due in UP is cancelled (R110, R115). -/
def enterDozeWait (p : PortIdx) (s : State) : State :=
  s.modPort p fun b =>
    { b with state := .dozeWait, idle := none, dozeRequested := false, dozeReqDue := true, wakeDue := false }

/-- The idle deadline of a port that is idle from this happening on; absent while the interval is 0 (R113). -/
def State.idleFrom (s : State) (p : PortIdx) : Option Time :=
  if (s.port p).autoDoze = 0 then none else some (s.time + (s.port p).autoDoze.setWidth 32 * 1000)

/-- A port in UP that becomes idle sets its idle deadline, or enters DOZE_WAIT if doze is requested; one that
stops being idle loses the deadline (R113, R114). -/
def refreshIdle (p : PortIdx) (s : State) : State :=
  if (s.port p).state = .up then
    if s.portIdle p then
      if (s.port p).dozeRequested then enterDozeWait p s
      else if (s.port p).idle.isNone then s.modPort p fun b => { b with idle := s.idleFrom p }
      else s
    else s.modPort p fun b => { b with idle := none }
  else s

/-! ### The admission arbiter -/

/-- The six claimants in their fixed cyclic order, beginning after a given one (R140). -/
def Claimant.after : Claimant → List Claimant
  | .decoder => [.branch 0, .branch 1, .branch 2, .branch 3, .eventUnit, .decoder]
  | .branch 0 => [.branch 1, .branch 2, .branch 3, .eventUnit, .decoder, .branch 0]
  | .branch 1 => [.branch 2, .branch 3, .eventUnit, .decoder, .branch 0, .branch 1]
  | .branch 2 => [.branch 3, .eventUnit, .decoder, .branch 0, .branch 1, .branch 2]
  | .branch 3 => [.eventUnit, .decoder, .branch 0, .branch 1, .branch 2, .branch 3]
  | .eventUnit => [.decoder, .branch 0, .branch 1, .branch 2, .branch 3, .eventUnit]

/-- Whether a claimant claims a slot of the general queue (R140). -/
def State.claims (s : State) : Claimant → Bool
  | .decoder => s.decoder.claim == .general
  | .branch p => !(s.port p).buffer.isEmpty
  | .eventUnit => s.trunkState == .up && s.nextLine.isSome

/-- The first present claimant after the last served one (R141). -/
def State.nextClaimant (s : State) : Option Claimant := s.arbLast.after.find? s.claims

/-- A frame enters the general queue at its tail (R136). -/
def placeGeneral (f : GeneralFrame) (s : State) : State := { s with generalQueue := s.generalQueue ++ [f] }

/-- A grant to a branch: the buffer's oldest WRITE enters the general queue and is consumed (R124, R142). -/
def grantBranch (p : PortIdx) (s : State) : State :=
  match (s.port p).buffer with
  | [] => s
  | w :: rest =>
    refreshIdle p
      ((placeGeneral (.write w) { s.modPort p (fun b => { b with buffer := rest }) with arbLast := .branch p }).consume
        (.branch p) .a)

/-- A grant to the event unit: a NOTICE with the vector of the line it chooses, which becomes NOTIFIED and
the last served line (R149, R150). -/
def grantEvent (s : State) : State :=
  match s.nextLine with
  | none => s
  | some i =>
    placeGeneral (.notice (s.line i).vector)
      { s.setLine i { s.line i with state := .notified } with lastLine := i, arbLast := .eventUnit }

/-- At most `n` grants, in the cyclic order, while a slot is free; the decoder's turn is left to the
decoder, which then takes its head (R141, R142). -/
def serveLoop : Nat → State → State
  | 0, s => s
  | n + 1, s =>
    if s.generalFree then
      match s.nextClaimant with
      | some (.branch p) => serveLoop n (grantBranch p s)
      | some .eventUnit => serveLoop n (grantEvent s)
      | some .decoder => s
      | none => s
    else s

/-- The admission arbiter grants every free slot to the claimants present (R141). -/
def serveClaims (s : State) : State := serveLoop (Config.generalSlots - s.generalQueue.length) s

/-! ### Event lines and the fault log -/

/-- The state of a line after an arrival (R147). -/
def LineState.arrive : LineState → LineState
  | .idle => .pending
  | .pending => .pending
  | .notified => .again
  | .again => .again

/-- An arrival on a line: its state moves and its count adds one, up to 255 (R147). -/
def EventLine.arrive (l : EventLine) : EventLine :=
  { l with state := l.state.arrive, arrivals := if l.arrivals = 255 then 255 else l.arrivals + 1 }

/-- An arrival on a line, whose claim is served at once where a slot is free (R146 to R148). -/
def arrival (i : LineIdx) (s : State) : State := serveClaims (s.setLine i (s.line i).arrive)

/-- The log takes a fault: added at its tail, or dropped and counted when it holds 16 (R160). -/
def takeFault (r : FaultRecord) (s : State) : State :=
  if s.faultLog.length < Config.logRecords then { s with faultLog := s.faultLog ++ [r] }
  else { s with dropped := if s.dropped = 0xFFFF then s.dropped else s.dropped + 1 }

/-- A fault occurs: the log takes it with the present router time, then line 32 has an arrival (R146, R159, R160). -/
def recordFault (kind : FaultKind) (source : FaultSource) (window : Option WindowIdx)
    (ticket : Option (BitVec 6)) (address : Option HostAddr) (count : Option FaultCount) (s : State) : State :=
  arrival 32 (takeFault ⟨kind, source, window, ticket, address, count, s.time⟩ s)

/-! ### Received frames -/

/-- A frame discarded in TRAINING or WAKING: counted, no record, not consumed (R97, R120). -/
def discardFrame (l : Link) (s : State) : State := s.modLink l LinkEnd.countDiscard

/-- A frame that fails the checks of R98, R94 or R119: counted, consumed where its kind is one of the
receive classes, and recorded with its kind byte. -/
def frameInvalid (l : Link) (kind : Byte) (cls : Option CreditClass) (s : State) : State :=
  let s := discardFrame l s
  let s := match cls with
    | some c => s.consume l c
    | none => s
  recordFault .frameInvalid (linkSource l) none none none (some (.one (kind.setWidth 16))) s

/-- A frame that finds no free slot of its class (R96). -/
def creditOverrun (l : Link) (cls : CreditClass) (ticket : Option (BitVec 6)) (address : HostAddr) (s : State) : State :=
  recordFault .creditOverrun (linkSource l) none ticket (some address) none ((discardFrame l s).consume l cls)

/-- A frame whose CRC fails, or that is malformed in framing: counted; in UP and DOZE_WAIT it adds CRC_ERROR
and the link enters TRAINING (R99, R118 to R120, R186). -/
def crcFail (l : Link) (s : State) : State :=
  let counted := s.modLink l fun e => { e with crcErrors := e.crcErrors + 1 }
  match s.rxPhase l with
  | .deaf => s
  | .live => startTraining l (recordFault .crcError (linkSource l) none none none none counted)
  | .training => counted
  | .doze => counted
  | .waking => counted

/-- A frame arrives: one that cannot be framed is as one whose CRC fails (R186); one that passes is counted
in frames in and goes on by what the link does in its state (R97, R119, R120). -/
def receive (l : Link) (size : Nat) (training live doze waking : State → State) (s : State) : State :=
  if sizeFramed size then
    let counted := s.modLink l LinkEnd.countIn
    match s.rxPhase l with
    | .deaf => s
    | .training => training counted
    | .live => live counted
    | .doze => doze counted
    | .waking => waking counted
  else crcFail l s

end Sys2Proof.Machine
end

