-- ==== Sys2Proof/Machine/Release.lean ====
section
/-! DEFINITION. Hold lists and branch egress queues: placing a request, the examination of a draining list's head, releases and the branch egress slot arbiter (02_hold_lists_and_release.md), and the flush of a port (06_branch_ports.md section 6.4). -/

namespace Sys2Proof.Machine

/-- A port enters WAKING, through DOZE: the wake deadline is set, and where the router starts the wake a WAKE
becomes due (R110, R116, R119, R120). A SYNC-ACK that is due is cancelled at the entry to DOZE (R110). -/
def enterWaking (started : Bool) (p : PortIdx) (s : State) : State :=
  (s.modPort p fun b =>
    { b with state := .waking, wake := some (s.time + b.wakeLimit.setWidth 32), answer := none, idle := none,
             dozeReqDue := false, wakeDue := started }).modLink (.branch p) fun e => { e with syncAckDue := false }

/-- A request is placed at the tail of a port's branch egress queue; in DOZE the placing starts a wake (R30,
R108, R119). -/
def placeEgress (p : PortIdx) (q : Queued) (s : State) : State :=
  let s := s.modPort p fun b => { b with queue := b.queue ++ [q] }
  refreshIdle p (if (s.port p).state = .doze then enterWaking true p s else s)

/-! ### Release -/

/-- Why the head of a list fails its examination, if it does: containment, then permission, then the port
check (R17, R28, R29). Containment is step 1 of R17, the range of the window's own record. R17 also says that a request
whose first byte now lies inside a lower-numbered window fails containment. The model takes that as said of a request that
has left the range of its own window: one that stays inside it is released, and no other window is looked up (R28): the
model's choice (log 37). -/
def State.releaseFailure (s : State) (w : WindowIdx) (h : Held) : Option (FaultKind × Status) :=
  let r := s.window w
  if !r.contains h.address || r.crosses h.address h.length then some (.crossing, .refused)
  else if !(if h.body.isRead then r.readPermit else r.writePermit) then some (.notPermitted, .refused)
  else if !(s.port r.portIdx).state.accepts then some (.portUnavailable, .unclaimed)
  else none

/-- The host ticket of a request's READ. -/
def State.bodyTicket (s : State) : ReqBody → Option (BitVec 6)
  | .read i => s.ticketOf i
  | .write _ => none

/-- A held request ends with an answer for a READ; a WRITE is discarded (R20, R28). -/
def endHeld (st : Status) (h : Held) (s : State) : State :=
  match h.body with
  | .read i => toReplying i st [] s
  | .write _ => s

/-- A run of failed releases: each head of a draining list that fails leaves the list with its record, until a
head passes or the list is empty (R27 to R29). -/
def failRun (w : WindowIdx) : Nat → State → State
  | 0, s => s
  | n + 1, s =>
    if s.windowState w = .drain then
      match s.holdList w with
      | [] => s
      | h :: rest =>
        match s.releaseFailure w h with
        | none => s
        | some (kind, st) =>
          failRun w n
            (recordFault kind .decoder (some w) (s.bodyTicket h.body) (some h.address) none
              (endHeld st h (s.setHoldList w rest)))
    else s

/-- The head of a draining list is examined, and each next head while it fails (R27). -/
def examineHeads (w : WindowIdx) (s : State) : State := failRun w (s.holdList w).length s

/-- Every window's head is examined, in window index order (log 16). -/
def examineAll (s : State) : State := (List.finRange 24).foldl (fun s w => examineHeads w s) s

/-- The heads of the windows that name a port are examined, in window index order (R35). -/
def examinePort (p : PortIdx) (s : State) : State :=
  (List.finRange 24).foldl (fun s w => if (s.window w).portIdx = p then examineHeads w s else s) s

/-- A draining window's head would fail its examination. -/
def State.headFails (s : State) (w : WindowIdx) : Bool :=
  s.windowState w = .drain &&
    match s.holdList w with
    | [] => false
    | h :: _ => (s.releaseFailure w h).isSome

/-- A window claims a port's queue: it drains, its head passes its checks, its record names the port (R33). -/
def State.windowClaims (s : State) (p : PortIdx) (w : WindowIdx) : Bool :=
  s.windowState w = .drain && (s.window w).portIdx = p &&
    match s.holdList w with
    | [] => false
    | h :: _ => (s.releaseFailure w h).isNone

/-- The lowest-numbered window that claims a port's queue (R34). -/
def State.claimingWindow (s : State) (p : PortIdx) : Option WindowIdx :=
  (List.finRange 24).find? (s.windowClaims p)

/-- The head of a list is released into the branch egress queue of its window's port, translated by the
record as it stands (R16, R30). -/
def release (w : WindowIdx) (s : State) : State :=
  match s.holdList w with
  | [] => s
  | h :: rest =>
    let r := s.window w
    let a := r.translate h.address
    let s := s.setHoldList w rest
    let s := match h.body with
      | .read i => setStage i (.queued ⟨r.portIdx, a⟩) s
      | .write _ => s
    placeEgress r.portIdx ⟨a, h.length, h.body⟩ s

/-- At most `n` grants of a port's free slots to the windows that claim it, lowest first, each next head
examined after its grant (R34). -/
def grantLoop (p : PortIdx) : Nat → State → State
  | 0, s => s
  | n + 1, s =>
    if s.egressFree p then
      match s.claimingWindow p with
      | some w => grantLoop p n (examineHeads w (release w s))
      | none => s
    else s

/-- The branch egress slot arbiter serves the draining windows of a port (R34). -/
def grantWindows (p : PortIdx) (s : State) : State :=
  grantLoop p (Config.egressSlots - (s.port p).queue.length) s

/-- The arbiters of all four ports serve the draining windows, in port order (log 16). -/
def grantAll (s : State) : State := (List.finRange 4).foldl (fun s p => grantWindows p s) s

/-! ### Flush -/

/-- The READs of a branch egress queue, oldest first. -/
def queuedReads (q : List Queued) : List EntryIdx :=
  q.filterMap fun x => match x.body with
    | .read i => some i
    | .write _ => none

/-- How many WRITEs a branch egress queue holds. -/
def queuedWrites (q : List Queued) : Nat := (q.filter fun x => !x.body.isRead).length

/-- The entries a flush answers, in their order: SENT in transmission order, then the queued READs (R75, R111). -/
def State.flushAnswers (s : State) (p : PortIdx) : List EntryIdx := s.sentOf p ++ queuedReads (s.port p).queue

/-- How many WRITEs a flush drops (R111). -/
def State.flushWrites (s : State) (p : PortIdx) : Nat :=
  queuedWrites (s.port p).queue + (s.port p).buffer.length

/-- A port in DOWN or OFF: nothing queued, due or timed (R92, R103, R105, R111). -/
def PortBlock.silence (st : PortState) (b : PortBlock) : PortBlock :=
  { b with state := st, link := b.link.silence, queue := [], buffer := [], dozeRequested := false,
           answer := none, wake := none, idle := none, dozeReqDue := false, wakeDue := false }

/-- The flush of a port at its entry to DOWN or OFF: its outstanding READs are answered UNCLAIMED, its WRITEs
are dropped, and a FLUSH record is added if anything ended (R78, R111). -/
def flush (st : PortState) (p : PortIdx) (s : State) : State :=
  let answers := s.flushAnswers p
  let writes := s.flushWrites p
  let s := answers.foldl (fun s i => toReplying i .unclaimed [] s) s
  let s := s.modPort p (PortBlock.silence st)
  if answers.length = 0 ∧ writes = 0 then s
  else recordFault .flush (.branch p) none none none
    (some (.pair (BitVec.ofNat 8 answers.length) (BitVec.ofNat 8 writes))) s

/-- A port enters DOWN or OFF: the record of the cause, the flush, then the heads of the draining windows that
claim the port, lowest window first (R35, R111, R112). -/
def portDown (st : PortState) (cause : Option FaultKind) (p : PortIdx) (s : State) : State :=
  let s := match cause with
    | some k => recordFault k (.branch p) none none none none s
    | none => s
  examinePort p (flush st p s)

/-- A port enters DOWN with its retry deadline 10,000 microseconds on (R92, R112). -/
def portFail (cause : FaultKind) (p : PortIdx) (s : State) : State :=
  (portDown .down (some cause) p s).modLink (.branch p) fun e => { e with retry := some (s.time + Config.retryInterval) }

/-! ### Trunk loss -/

/-- A line the host was notified of returns to PENDING (R157). -/
def EventLine.renotify (l : EventLine) : EventLine :=
  { l with state := match l.state with
      | .idle => .idle
      | .pending => .pending
      | .notified => .pending
      | .again => .pending }

/-- How many ticket entries are live (R130). -/
def State.liveCount (s : State) : Nat := (s.entries.toList.filter fun e => e.live.isSome).length

/-- Every live entry is freed without an answer, epochs kept, and the reply lane is emptied (R77, R79, R80). -/
def freeEntries (s : State) : State :=
  { s with
    entries := mapVec (fun e => { e with live := none }) s.entries
    sentOrder := Vector.replicate 4 []
    replyLane := [] }

/-- The READs of every hold list and branch egress queue are removed (R37, R79). -/
def dropReads (s : State) : State :=
  { s with
    holdLists := mapVec (fun h => h.filter fun x => !x.body.isRead) s.holdLists
    ports := mapVec (fun b => { b with queue := b.queue.filter fun x => !x.body.isRead }) s.ports }

/-- The trunk ingress queue is emptied, and the decoder is left without a head (R60). -/
def dropIngress (s : State) : State := { s with ingress := [], decoder := .clear }

/-- Steps 1 to 4 of trunk loss (R130): the transmission cut, the trunk ingress queue and the reply lane emptied, every
live entry freed. Their effects on hold lists and branch egress queues belong to step 3 (R37, R79): the READs leave both, and
the slots they free are granted, each next head examined after its grant, its record coming before that of the cause (R27,
R30, R34). A failing head that the loss itself brings up is not examined here: the list of R27 does not name trunk loss. The
spec leaves open when it is: the model's choice (log 16). -/
def loseRequests (s : State) : State :=
  grantAll (dropReads (freeEntries (dropIngress { s with trunkState := .down, trunk := s.trunk.silence })))

/-- Steps 5 to 8 of trunk loss, with `n` live entries freed (R130): the general queue emptied, the lines returned to
PENDING, then the record of the cause, the last of the happening (R161, log 16), and the retry deadline. -/
def recordLoss (cause : FaultKind) (n : Nat) (s : State) : State :=
  let s := { s with generalQueue := [], lines := mapVec EventLine.renotify s.lines }
  let s := recordFault cause .trunk none none none (some (.one (BitVec.ofNat 16 n))) s
  { s with trunk := { s.trunk with retry := some (s.time + Config.retryInterval) } }

/-- Trunk loss: its eight steps in their order (R130), then the ports that it left idle set their idle deadlines (R103,
R113). One of them with doze requested enters DOZE_WAIT, as R113 and R114 read, where R85 and R103 call its state and doze
requested unchanged: the model's choice (log 33). -/
def trunkLoss (cause : FaultKind) (s : State) : State :=
  (List.finRange 4).foldl (fun s p => refreshIdle p s) (recordLoss cause s.liveCount (loseRequests s))

end Sys2Proof.Machine
end

