-- ==== Sys2Proof/Machine/Management.lean ====
section
/-! DEFINITION. What the management unit does with a WRITE that the decoder hands it (10_management_aperture.md): form, values, fields, counters and commands, and the ROUTER RESET command. -/

namespace Sys2Proof.Machine

/-- A malformed request or an invalid value: one MGMT_FORM record (R173). -/
def mgmtForm (ticket : Option (BitVec 6)) (off : Nat) (a : HostAddr) (s : State) : State :=
  recordFault .mgmtForm .management (windowAt off) ticket (some a) none s

/-! ### Window records -/

/-- The record that 32 written bytes carry, its mode byte naming a mode (R188); the status bytes are ignored (R2). -/
def windowOf (data : List Byte) : Option WindowRecord :=
  let f := fun k => data.getD k 0
  (modeOf (f 1)).map fun m =>
    { enable := (f 0).getLsbD 0
      mode := m
      readPermit := (f 0).getLsbD 1
      writePermit := (f 0).getLsbD 2
      port := f 2
      base := BitVec.ofNat 40 (beNat ((data.drop 0x08).take 5))
      limit := BitVec.ofNat 40 (beNat ((data.drop 0x10).take 5))
      target := BitVec.ofNat 32 (beNat ((data.drop 0x18).take 4)) }

/-- Conditions 2 to 8 of R8, none of which may hold in an enabled record. -/
def WindowRecord.valid (r : WindowRecord) : Bool :=
  r.base.toNat ≤ r.limit.toNat &&
  r.base.toNat % 4096 == 0 &&
  r.limit.toNat % 4096 == 4095 &&
  r.target.toNat % 4096 == 0 &&
  r.limit.toNat - r.base.toNat + 1 ≤ 2 ^ 32 &&
  r.target.toNat + (r.limit.toNat - r.base.toNat + 1) ≤ 2 ^ 32 &&
  r.port.toNat ≤ 3

/-- The record of a whole-record write that passes its checks: all of R8 with enable on, the mode alone with
enable off (R8, R9). -/
def acceptedWindow (data : List Byte) : Option WindowRecord :=
  match windowOf data with
  | some r => if !r.enable || r.valid then some r else none
  | none => none

/-- Every request held for a window ends, oldest first, and one record counts them if any ended (R20, R21). -/
def endAllHeld (w : WindowIdx) (st : Status) (kind : FaultKind) (s : State) : State :=
  let held := s.holdList w
  let s := held.foldl (fun s h => endHeld st h s) (s.setHoldList w [])
  if held.length = 0 then s
  else recordFault kind .management (some w) none none (some (.one (BitVec.ofNat 16 held.length))) s

/-- An accepted whole-record write: the record is replaced, and the change of enable and mode applied (R10,
R18 to R22, R32). -/
def applyWindow (w : WindowIdx) (r : WindowRecord) (s : State) : State :=
  let s := s.setWindow w r
  if r.enable then
    match r.mode with
    | .pass => grantWindows r.portIdx (examineHeads w s)
    | .hold => s
    | .refuse => endAllHeld w .refused .windowRefused s
  else endAllHeld w .unclaimed .windowDisabled s

/-- A whole-record write of the correct form (R7 to R10). -/
def writeWindow (w : WindowIdx) (data : List Byte) (a : HostAddr) (s : State) : State :=
  match acceptedWindow data with
  | some r => applyWindow w r s
  | none => recordFault .windowInvalid .management (some w) none (some a) none s

/-! ### ROUTER RESET -/

/-- The state that ROUTER RESET sets (R180), everything else kept (R181). -/
def clearRouter (s : State) : State :=
  { s with
    windows := Vector.replicate 24 .zero
    holdLists := Vector.replicate 24 []
    entries := mapVec (fun e => { e with live := none }) s.entries
    sentOrder := Vector.replicate 4 []
    replyLane := []
    generalQueue := []
    laneLast := .general
    arbLast := .eventUnit
    ports := mapVec (fun b => PortBlock.off b.link.signal) s.ports
    lines := Vector.replicate 33 .zero
    lastLine := 32
    faultLog := []
    dropped := 0
    trunk := { s.trunk with framesOut := 0, framesIn := 0, crcErrors := 0, framesDiscarded := 0 }
    ticketLifetime := Config.defaultLifetime
    headWaitLimit := Config.defaultHeadWait }

/-! ### Fields -/

/-- A field that a WRITE covers holds a value that satisfies `p` (R172). -/
def fieldIs (v : Option Nat) (p : Nat → Bool) : Bool :=
  match v with
  | some n => p n
  | none => true

/-- A state changed by the value of a field, where the WRITE covers it. -/
def withField (v : Option Nat) (f : Nat → State → State) (s : State) : State :=
  match v with
  | some n => f n s
  | none => s

/-- Whether every field that a WRITE covers holds a valid value (R172). -/
def validFields (r : RecordId) (at' : Nat) (data : List Byte) : Bool :=
  let field := fieldOf at' data
  match r with
  | .control =>
    fieldIs (field 0x00 8) (fun v => v < 2 ^ 40 && v % 2 ^ 16 == 0) &&
    fieldIs (field 0x08 4) (fun v => 16 ≤ v && v ≤ 1048575) &&
    fieldIs (field 0x0C 4) (fun v => v ≤ 65535) &&
    fieldIs (field 0x10 4) (fun v => v ≤ 1)
  | .port _ =>
    fieldIs (field 0x00 1) (fun v => v ≤ 1) &&
    fieldIs (field 0x01 1) (fun v => v ≤ 1) &&
    fieldIs (field 0x02 2) (fun v => v ≤ 255) &&
    fieldIs (field 0x04 2) (fun v => 10 ≤ v && v ≤ 65535) &&
    fieldIs (field 0x08 1) (fun v => v ≤ 3)
  | .line _ =>
    fieldIs (field 0x00 1) (fun v => v ≤ 1) &&
    fieldIs (field 0x04 1) (fun v => v ≤ 2)
  | .logControl => fieldIs (field 0x08 4) (fun v => v ≤ 1)
  | _ => true

/-! ### Router control -/

/-- A WRITE to the router control record (R169, R177, R178). -/
def writeControl (at' : Nat) (data : List Byte) (s : State) : State :=
  let field := fieldOf at' data
  let s := withField (field 0x00 8) (fun v s => { s with apertureBase := BitVec.ofNat 40 v }) s
  let s := withField (field 0x08 4) (fun v s => { s with ticketLifetime := BitVec.ofNat 32 v }) s
  let s := withField (field 0x0C 4) (fun v s => { s with headWaitLimit := BitVec.ofNat 32 v }) s
  withField (field 0x10 4) (fun v s => if v = 1 then clearRouter s else s) s

/-! ### Branch ports -/

/-- The enable is written: OFF becomes TRAINING through DOWN, any other state OFF with a flush (R105). -/
def writeEnable (p : PortIdx) (on : Bool) (s : State) : State :=
  if on then
    if (s.port p).state = .off then grantWindows p (startTraining (.branch p) s) else s
  else if (s.port p).state = .off then s
  else portDown .off none p s

/-- The auto-doze idle interval is written; in UP and idle the idle time restarts (R113). -/
def writeInterval (p : PortIdx) (v : BitVec 16) (s : State) : State :=
  let s := s.modPort p fun b => { b with autoDoze := v }
  if (s.port p).state = .up ∧ s.portIdle p then s.modPort p fun b => { b with idle := s.idleFrom p } else s

/-- The result of a port command (R106). -/
def setResult (p : PortIdx) (r : CommandResult) (s : State) : State :=
  s.modPort p fun b => { b with lastResult := r }

/-- DOZE: in UP the port enters DOZE_WAIT if idle, and else doze is requested; otherwise IGNORED (R106, R114). -/
def commandDoze (p : PortIdx) (s : State) : State :=
  if (s.port p).state = .up then
    let s := setResult p .accepted s
    if s.portIdle p then enterDozeWait p s else s.modPort p fun b => { b with dozeRequested := true }
  else setResult p .ignored s

/-- WAKE: in DOZE the port enters WAKING with a WAKE due; otherwise IGNORED (R106, R119, R120). -/
def commandWake (p : PortIdx) (s : State) : State :=
  if (s.port p).state = .doze then enterWaking true p (setResult p .accepted s) else setResult p .ignored s

/-- RESET: an enabled port flushes, enters DOWN and at once TRAINING; in OFF it is IGNORED (R106). -/
def commandReset (p : PortIdx) (s : State) : State :=
  if (s.port p).state = .off then setResult p .ignored s
  else grantWindows p (startTraining (.branch p) (portDown .down none p (setResult p .accepted s)))

/-- A port's command by its code (R106). -/
def portCommand (p : PortIdx) (code : Nat) (s : State) : State :=
  if code = 1 then commandDoze p s else if code = 2 then commandWake p s else if code = 3 then commandReset p s else s

/-- The counter at a record offset becomes 0 where the WRITE covers it (R179). -/
def clearCounter (at' : Nat) (data : List Byte) (field : Nat) (f : LinkEnd → LinkEnd) (l : Link) (s : State) : State :=
  withField (fieldOf at' data field 4) (fun _ s => s.modLink l f) s

/-- The four link counters of a record, from the offset of frames out on (R179, R189). -/
def clearCounters (at' : Nat) (data : List Byte) (base : Nat) (l : Link) (s : State) : State :=
  let s := clearCounter at' data base (fun e => { e with framesOut := 0 }) l s
  let s := clearCounter at' data (base + 4) (fun e => { e with framesIn := 0 }) l s
  let s := clearCounter at' data (base + 8) (fun e => { e with crcErrors := 0 }) l s
  clearCounter at' data (base + 12) (fun e => { e with framesDiscarded := 0 }) l s

/-- A WRITE to a branch port record: fields, then counters, then the command (R104 to R107, R172). -/
def writePort (p : PortIdx) (at' : Nat) (data : List Byte) (s : State) : State :=
  let field := fieldOf at' data
  let s := withField (field 0x00 1) (fun v s => writeEnable p (v = 1) s) s
  let s := withField (field 0x01 1) (fun v s => s.modPort p fun b => { b with upWriteEnable := v = 1 }) s
  let s := withField (field 0x02 2) (fun v s => writeInterval p (BitVec.ofNat 16 v) s) s
  let s := withField (field 0x04 2) (fun v s => s.modPort p fun b => { b with wakeLimit := BitVec.ofNat 16 v }) s
  let s := withField (field 0x10 8) (fun v s => s.modPort p fun b => { b with upOffset := BitVec.ofNat 40 v }) s
  let s := clearCounters at' data 0x1C (.branch p) s
  let s := withField (field 0x2C 4) (fun _ s => s.modPort p fun b => { b with stale := 0 }) s
  withField (field 0x08 1) (portCommand p) s

/-! ### Event lines and the fault log -/

/-- A line's command by its code: ACK returns NOTIFIED to IDLE and REPEAT to PENDING, CLEAR returns any state to
IDLE, each with count 0; an ACK in IDLE or PENDING is ignored (R152, R153). -/
def EventLine.command (l : EventLine) (code : Nat) : EventLine :=
  if code = 1 then
    match l.state with
    | .idle => l
    | .pending => l
    | .notified => { l with state := .idle, arrivals := 0 }
    | .again => { l with state := .pending, arrivals := 0 }
  else if code = 2 then { l with state := .idle, arrivals := 0 }
  else l

/-- A WRITE to an event line record: fields, then the command; a claim that appears is served at once where a
slot is free (R148, R151 to R153, log 19). A claim that the event unit had before, and that a slot freed at this happening
could serve, is served between the two as well: of the orders that R156 allows, that is the model's choice (log 36). -/
def writeLine (i : LineIdx) (at' : Nat) (data : List Byte) (s : State) : State :=
  let field := fieldOf at' data
  let s := withField (field 0x00 1) (fun v s => s.setLine i { s.line i with enable := v = 1 }) s
  let s := withField (field 0x01 1) (fun v s => s.setLine i { s.line i with vector := byte v }) s
  let s := serveClaims s
  serveClaims (withField (field 0x04 1) (fun v s => s.setLine i ((s.line i).command v)) s)

/-- POP removes the head record, if there is one (R164). -/
def popLog (s : State) : State := { s with faultLog := s.faultLog.tail }

/-- A WRITE to the fault log control record: the dropped count is set to 0, then the command (R163). -/
def writeLogControl (at' : Nat) (data : List Byte) (s : State) : State :=
  let field := fieldOf at' data
  let s := withField (field 0x04 4) (fun _ s => { s with dropped := 0 }) s
  withField (field 0x08 4) (fun v s => if v = 1 then popLog s else s) s

/-! ### A management request -/

/-- A well-formed WRITE with valid values is applied to its record; read-only records change nothing (R172, R174). -/
def applyRecord (r : RecordId) (at' : Nat) (data : List Byte) (a : HostAddr) (s : State) : State :=
  match r with
  | .window w => writeWindow w data a s
  | .control => writeControl at' data s
  | .port p => writePort p at' data s
  | .trunk => clearCounters at' data 0x08 .trunk s
  | .line i => writeLine i at' data s
  | .logControl => writeLogControl at' data s
  | .identity => s
  | .routerTime => s
  | .view _ => s
  | .logHead => s

/-- The offset of a management request: its first byte less the aperture base (R167). -/
def State.offsetOf (s : State) (a : HostAddr) : Nat := a.toNat - s.apertureBase.toNat

/-- The management unit handles a WRITE (R57, R171 to R173). -/
def manageWrite (a : HostAddr) (data : List Byte) (s : State) : State :=
  let off := s.offsetOf a
  match writeForm off data.length with
  | some (r, at') => if validFields r at' data then applyRecord r at' data a s else mgmtForm none off a s
  | none => mgmtForm none off a s

/-- The management unit answers a READ in the decoder's granted slot (R56, R142, R173, R174). -/
def manageRead (ticket : BitVec 6) (a : HostAddr) (length : Nat) (s : State) : State :=
  let off := s.offsetOf a
  match readBytes s off length with
  | some bytes => placeGeneral (.result ticket .ok bytes) { s with arbLast := .decoder }
  | none => mgmtForm (some ticket) off a (placeGeneral (.result ticket .refused []) { s with arbLast := .decoder })

end Sys2Proof.Machine
end

