-- ==== Sys2Proof/Machine/Decoder.lean ====
section
/-! DEFINITION. The request decoder (03_the_request_decoder.md): the fate of a head frame, the resources it needs, taking it, and the run of frames decided at one happening. -/

namespace Sys2Proof.Machine

/-- What the checks of section 3.2 decide for a head frame. -/
inductive Fate where
  /-- TICKET_REUSE (R43). -/
  | reuse
  /-- A management request (R44). -/
  | management
  /-- A failed decode (R45, R46), with its window where one matched. -/
  | failed (kind : FaultKind) (status : Status) (window : Option WindowIdx)
  /-- Placement in a hold list (R47). -/
  | toHold (w : WindowIdx)
  /-- Placement in the branch egress queue of the window's port (R47). -/
  | toQueue (w : WindowIdx)
  deriving DecidableEq, Repr

/-- The fate of a request with a matching window: crossing, permission, mode, port, placement (R13 to R15,
R45 to R47). -/
def State.windowFate (s : State) (f : HostFrame) (w : WindowIdx) : Fate :=
  let r := s.window w
  if r.crosses f.address f.length then .failed .crossing .refused (some w)
  else if !(if f.body.isRead then r.readPermit else r.writePermit) then .failed .notPermitted .refused (some w)
  else
    match s.windowState w with
    | .refuse => .failed .windowRefused .refused (some w)
    | .hold => .toHold w
    | .drain =>
      if (s.port r.portIdx).state.accepts then .toHold w else .failed .portUnavailable .unclaimed (some w)
    | .pass =>
      if (s.port r.portIdx).state.accepts then .toQueue w else .failed .portUnavailable .unclaimed (some w)
    | .disabled => .failed .noWindow .unclaimed none

/-- The fate of a frame, by the checks in their order (R42 to R47). -/
def State.fate (s : State) (f : HostFrame) : Fate :=
  let reuse := match f.body with
    | .read t => s.ticketLive t
    | .write _ => false
  if reuse then .reuse
  else if s.inAperture f.address then .management
  else
    match s.lookup f.address with
    | none => .failed .noWindow .unclaimed none
    | some w => s.windowFate f w

/-- The matching window that an examination finds (R40). -/
def Fate.window : Fate → Option WindowIdx
  | .reuse => none
  | .management => none
  | .failed _ _ w => w
  | .toHold w => some w
  | .toQueue w => some w

/-- A frame that needs a ticket entry has one (R48, R49). -/
def State.entryFor (s : State) (f : HostFrame) : Bool := !f.body.isRead || s.freeEntry.isSome

/-- It is the decoder's turn for a free slot of the general queue (R52, R141). -/
def State.decoderTurn (s : State) : Bool :=
  s.generalFree && ({ s with decoder := { s.decoder with claim := .general } } : State).nextClaimant == some .decoder

/-- Every resource that the frame's fate needs is available (R42, R48). -/
def State.canTake (s : State) (f : HostFrame) : Fate → Bool
  | .reuse => true
  | .management => !f.body.isRead || s.decoderTurn
  | .failed .. => s.entryFor f
  | .toHold _ => s.entryFor f && s.heldTotal < Config.holdSlots
  | .toQueue w => s.entryFor f && s.egressFree (s.window w).portIdx

/-- The claim of a frame that waits: on a shared slot that is its last unmet need (R48, R51, R52). -/
def State.claimFor (s : State) (f : HostFrame) : Fate → Claim
  | .management => .general
  | .toQueue w => if s.entryFor f then .egress (s.window w).portIdx else .noClaim
  | .toHold _ => .noClaim
  | .failed .. => .noClaim
  | .reuse => .noClaim

/-- A READ whose fate is not a management request is allocated the lowest-numbered FREE entry (R54, R63). -/
def allocateFree (f : HostFrame) (ticket : BitVec 6) (w : Option WindowIdx) (st : Stage)
    (next : EntryIdx → State → State) (s : State) : State :=
  match s.freeEntry with
  | some i => next i (allocate i f ticket w st s)
  | none => s

/-- The host ticket of a READ, absent for a WRITE. -/
def HostBody.ticket : HostBody → Option (BitVec 6)
  | .read t => some t
  | .write _ => none

/-- A failed decode: a READ is answered through its entry's reply slot, a WRITE discarded, and the record added
(R45, R54). -/
def takeFailed (f : HostFrame) (kind : FaultKind) (st : Status) (w : Option WindowIdx) (s : State) : State :=
  let s := match f.body with
    | .read t =>
      allocateFree f t w (.replying none st []) (fun i s => { s with replyLane := s.replyLane ++ [i] }) s
    | .write _ => s
  recordFault kind .decoder w f.body.ticket (some f.address) none s

/-- A request is appended, untranslated, to its window's hold list (R25). -/
def takeHold (f : HostFrame) (w : WindowIdx) (s : State) : State :=
  match f.body with
  | .read t =>
    allocateFree f t (some w) .held
      (fun i s => s.setHoldList w (s.holdList w ++ [⟨f.address, f.length, .read i⟩])) s
  | .write d => s.setHoldList w (s.holdList w ++ [⟨f.address, f.length, .write d⟩])

/-- A request is translated and placed in the branch egress queue of its window's port (R16, R51). -/
def takeQueue (f : HostFrame) (w : WindowIdx) (s : State) : State :=
  let r := s.window w
  let a := r.translate f.address
  match f.body with
  | .read t =>
    allocateFree f t (some w) (.queued ⟨r.portIdx, a⟩)
      (fun i s => placeEgress r.portIdx ⟨a, f.length, .read i⟩ s) s
  | .write d => placeEgress r.portIdx ⟨a, f.length, .write d⟩ s

/-- The effect of taking or discarding a frame by its fate (R43, R54, R56, R57). -/
def takeFate (f : HostFrame) (d : Fate) (s : State) : State :=
  match d with
  | .reuse => recordFault .ticketReuse .decoder none f.body.ticket (some f.address) none s
  | .management =>
    match f.body with
    | .read t => manageRead t f.address f.length s
    | .write data => manageWrite f.address data s
  | .failed kind st w => takeFailed f kind st w s
  | .toHold w => takeHold f w s
  | .toQueue w => takeQueue f w s

/-- The head leaves the trunk ingress queue and its credit is returned (R54, R55). -/
def popHead (f : HostFrame) (s : State) : State :=
  ({ s with ingress := s.ingress.tail, decoder := .clear } : State).consume .trunk f.body.cls

/-- The decoder takes a frame (R54). -/
def takeFrame (f : HostFrame) (d : Fate) (s : State) : State := takeFate f d (popHead f s)

/-- The head wait deadline of a frame that becomes head at this happening and is not taken (R58). -/
def State.headDeadline (s : State) : Option Time :=
  if s.headWaitLimit = 0 then none else some (s.time + s.headWaitLimit)

/-- The head waits: its claim and matching window are kept, and a new head sets its deadline (R40, R42, R58). -/
def waitHead (fresh : Bool) (f : HostFrame) (d : Fate) (s : State) : State :=
  { s with decoder := ⟨if fresh then s.headDeadline else s.decoder.deadline, s.claimFor f d, d.window⟩ }

/-- The decoder's head is a management READ: it claims a slot of the general queue, and the claimants that stand
before it in the cyclic order are served first (R52, R141). Any other head leaves the arbiter alone. -/
def claimGeneral (f : HostFrame) (d : Fate) (s : State) : State :=
  if d = .management ∧ f.body.isRead then serveClaims { s with decoder := { s.decoder with claim := .general } } else s

/-- The decoder examines its head, and takes frame after frame until the queue is empty or a head must wait;
`fresh` says that the head became head at this happening (R41, R42). A next head claims before a further slot of the
general queue is granted (R141, R142). So where a management READ is granted a slot and further slots are free, the frames
behind the READ act before a waiting branch port or the event unit is granted: a WRITE among them that flushes a port (its
enable off, its RESET) or carries out ROUTER RESET withdraws that claim, and a buffered module WRITE is dropped. R57, R141,
R142 and R143 leave open which acts first: the model's choice (log 38; log 36 for a WRITE to an event line). At most `n`
frames. -/
def decodeLoop : Nat → Bool → State → State
  | 0, _, s => serveClaims s
  | n + 1, fresh, s =>
    match s.ingress with
    | [] => serveClaims s
    | f :: _ =>
      let d := s.fate f
      let s := claimGeneral f d s
      if s.canTake f d then decodeLoop n true (takeFrame f d s) else serveClaims (waitHead fresh f d s)

/-- The decoder's run of frames at one happening (R41). -/
def decodeRun (fresh : Bool) (s : State) : State := decodeLoop s.ingress.length fresh s

/-- The end of a happening: claims on the general queue are served, and the decoder examines a waiting head
again (R53, R141). -/
def settle (s : State) : State := decodeRun false (serveClaims s)

/-- A frame enters the trunk ingress queue at its tail; into an empty queue it becomes head and is examined
(R41, R126). -/
def enqueueTrunk (f : HostFrame) (s : State) : State :=
  let s' := { s with ingress := s.ingress ++ [f] }
  if s.ingress.isEmpty then decodeRun true s' else s'

/-- The class of a host request (R84). -/
def requestCls : TrunkRequest → CreditClass
  | .read .. => .b
  | .write .. => .a

/-- A free slot of the trunk ingress queue for a class (R96, R126). -/
def State.ingressSlot (s : State) : CreditClass → Bool
  | .a => 0 < s.freeA .trunk
  | .b => 0 < s.freeB .trunk

/-- A READ or WRITE of the host handed on in UP: validity, credit, then the trunk ingress queue (R96 to R98, R126). -/
def acceptRequest (r : TrunkRequest) (s : State) : State :=
  if validRequest r then
    if s.ingressSlot (requestCls r) then enqueueTrunk (requestFrame r) s
    else creditOverrun .trunk (requestCls r) (requestFrame r).body.ticket (requestFrame r).address s
  else frameInvalid .trunk (requestKind r) (some (requestCls r)) s

/-- The size of a host request's frame. -/
def requestSize : TrunkRequest → Nat
  | .read size .. => size
  | .write size .. => size

/-- A READ or WRITE arrives on the trunk (R97, R126). The trunk has no doze states. -/
def receiveRequest (r : TrunkRequest) (s : State) : State :=
  receive .trunk (requestSize r) (discardFrame .trunk) (acceptRequest r) id id s

/-- The WRITE frame that the host sends for a management write: `data` at an offset of the aperture, as the
base stands (00_scope.md section 5 "Software sequences", log 14). -/
def hostWrite (off : Nat) (data : List Byte) (s : State) : State :=
  receiveRequest
    (.write (9 + data.length) (byte data.length) (s.apertureBase + BitVec.ofNat 40 off) data) s

end Sys2Proof.Machine
end

