-- ==== Sys2Proof/Machine/Deadlines.lean ====
section
/-! DEFINITION. The meanings of the deadlines: RESEND_DEADLINE, RETRY_DEADLINE, TICKET_DEADLINE, HEAD_WAIT_DEADLINE, ANSWER_DEADLINE, WAKE_DEADLINE, IDLE_DEADLINE. A deadline that is absent or not reached has no effect (log 3, 4). -/

namespace Sys2Proof.Machine

/-- The training has failed: the link enters DOWN with TRAINING_FAIL (R91, R112, R130). -/
def trainingFail (l : Link) (s : State) : State :=
  settle (match l with
    | .trunk => trunkLoss .trainingFail s
    | .branch p => portFail .trainingFail p s)

/-- The resend deadline in TRAINING: the next SYNC, or the failure after 32 (R87, R91). -/
def resendReached (l : Link) (s : State) : State :=
  let e := s.linkEnd l
  if s.linkTraining l && s.reached e.resend then
    if e.syncsSent < Config.maxSyncs then dueSync l s else trainingFail l s
  else s

/-- The retry deadline in DOWN: the link enters TRAINING; on a branch the arbiter may grant slots again and the
decoder examines a waiting head again (R34, R53, R92). -/
def retryReached (l : Link) (s : State) : State :=
  if s.linkDown l && s.reached (s.linkEnd l).retry then
    match l with
    | .trunk => startTraining .trunk s
    | .branch p => settle (grantWindows p (startTraining (.branch p) s))
  else s

/-- The answer EXPIRED and its record (R72). -/
def expire (i : EntryIdx) (v : Live) (s : State) : State :=
  recordFault .expired .tickets v.window (some v.ticket) (some v.address) none (toReplying i .expired [] s)

/-- A READ's request is removed from a hold list, wherever it stands (R36). -/
def removeHeld (w : WindowIdx) (i : EntryIdx) (s : State) : State :=
  s.setHoldList w ((s.holdList w).filter fun h => h.body ≠ .read i)

/-- A READ's request is removed from a branch egress queue, wherever it stands (R72, R108). -/
def removeQueued (p : PortIdx) (i : EntryIdx) (s : State) : State :=
  s.modPort p fun b => { b with queue := b.queue.filter fun q => q.body ≠ .read i }

/-- An entry's deadline by the state it leaves: HELD leaves its list, whose next head is examined; QUEUED leaves
its queue, whose slot is granted; SENT leaves its READ at the module; REPLYING is not affected (R36, R72). -/
def ticketReached (i : EntryIdx) (s : State) : State :=
  match (s.entry i).live with
  | none => s
  | some v =>
    if s.reached (some v.deadline) then
      match v.stage with
      | .held =>
        match v.window with
        | some w =>
          let s := examineHeads w (expire i v (removeHeld w i s))
          settle (grantWindows (s.window w).portIdx s)
        | none => settle (expire i v s)
      | .queued r => settle (refreshIdle r.port (grantWindows r.port (expire i v (removeQueued r.port i s))))
      | .sent r => settle (refreshIdle r.port (expire i v s))
      | .replying .. => s
    else s

/-- The head is discarded with HEAD_STALL, its credit returned, and the next frame becomes head (R55, R58). -/
def headWaitReached (s : State) : State :=
  match s.ingress with
  | [] => s
  | f :: _ =>
    if s.reached s.decoder.deadline then
      let w := s.decoder.lastWindow
      decodeRun true (recordFault .headStall .decoder w f.body.ticket (some f.address) none (popHead f s))
    else s

/-- The answer deadline in DOZE_WAIT: back to UP with DOZE_NO_ANSWER (R117). -/
def answerReached (p : PortIdx) (s : State) : State :=
  let b := s.port p
  if b.state = .dozeWait ∧ s.reached b.answer then
    refreshIdle p (recordFault .dozeNoAnswer (.branch p) none none none none
      (s.modPort p fun b => { b with state := .up, answer := none, dozeReqDue := false, dozeRequested := false }))
  else s

/-- The wake deadline in WAKING: WAKE_FAIL, flush, DOWN (R121). -/
def wakeReached (p : PortIdx) (s : State) : State :=
  let b := s.port p
  if b.state = .waking ∧ s.reached b.wake then settle (portFail .wakeFail p s) else s

/-- The idle deadline in UP: the port enters DOZE_WAIT (R113, R115). -/
def idleReached (p : PortIdx) (s : State) : State :=
  let b := s.port p
  if b.state = .up ∧ s.reached b.idle then enterDozeWait p s else s

/-- RESEND_DEADLINE (R87, R91). -/
def execResendDeadline (l : Link) (s : State) : Host.Outcome State Fault Refusal := .next (whenPowered (resendReached l) s)

/-- RETRY_DEADLINE (R92). -/
def execRetryDeadline (l : Link) (s : State) : Host.Outcome State Fault Refusal := .next (whenPowered (retryReached l) s)

/-- TICKET_DEADLINE (R72). -/
def execTicketDeadline (i : EntryIdx) (s : State) : Host.Outcome State Fault Refusal := .next (whenPowered (ticketReached i) s)

/-- HEAD_WAIT_DEADLINE (R58). -/
def execHeadWaitDeadline (s : State) : Host.Outcome State Fault Refusal := .next (whenPowered headWaitReached s)

/-- ANSWER_DEADLINE (R117). -/
def execAnswerDeadline (p : PortIdx) (s : State) : Host.Outcome State Fault Refusal := .next (whenPowered (answerReached p) s)

/-- WAKE_DEADLINE (R121). -/
def execWakeDeadline (p : PortIdx) (s : State) : Host.Outcome State Fault Refusal := .next (whenPowered (wakeReached p) s)

/-- IDLE_DEADLINE (R113). -/
def execIdleDeadline (p : PortIdx) (s : State) : Host.Outcome State Fault Refusal := .next (whenPowered (idleReached p) s)

end Sys2Proof.Machine
end

