-- ==== Sys2Proof/Machine/HostWrites.lean ====
section
/-! DEFINITION. The meanings of the management writes. Each is the arrival on the trunk of the WRITE frame that the row names (00_scope.md section 5, log 14), at the offsets of R170 and R189; what the WRITE does stands in Management.lean. -/

namespace Sys2Proof.Machine

/-- Four bytes that carry a command code in the first (R189). -/
def commandGroup (code : Byte) : List Byte := code :: pad 3

/-- The first control group of a port record (R189). -/
def controlGroup (enable upWrite : Byte) (interval : BitVec 16) : List Byte :=
  enable :: upWrite :: beBytes 2 interval.toNat

/-- WINDOW_RECORD_WRITE: 32 bytes at the record's first byte (R7, R10). -/
def execWindowRecordWrite (w : WindowIdx) (bytes : Vector Byte 32) (s : State) : Host.Outcome State Fault Refusal :=
  .next (hostWrite (RecordId.window w).offset bytes.toList s)

/-- APERTURE_BASE_WRITE: 8 bytes at 0x0040 (R169, R177). -/
def execApertureBaseWrite (value : BitVec 64) (s : State) : Host.Outcome State Fault Refusal :=
  .next (hostWrite 0x0040 (beBytes 8 value.toNat) s)

/-- TICKET_LIFETIME_WRITE: 4 bytes at 0x0048 (R65, R177). -/
def execTicketLifetimeWrite (value : BitVec 32) (s : State) : Host.Outcome State Fault Refusal :=
  .next (hostWrite 0x0048 (beBytes 4 value.toNat) s)

/-- HEAD_WAIT_LIMIT_WRITE: 4 bytes at 0x004C (R59, R177). -/
def execHeadWaitLimitWrite (value : BitVec 32) (s : State) : Host.Outcome State Fault Refusal :=
  .next (hostWrite 0x004C (beBytes 4 value.toNat) s)

/-- ROUTER_RESET: the command 1 at 0x0050 (R178, R180). -/
def execRouterReset (s : State) : Host.Outcome State Fault Refusal := .next (hostWrite 0x0050 (beBytes 4 1) s)

/-- PORT_ENABLE: the first control group of the port record (R105). -/
def execPortEnable (p : PortIdx) (enable upWrite : Byte) (interval : BitVec 16) (s : State) :
    Host.Outcome State Fault Refusal :=
  .next (hostWrite (RecordId.port p).offset (controlGroup enable upWrite interval) s)

/-- AUTO_DOZE_INTERVAL_WRITE: the same group, for its interval (R113, log 15). -/
def execAutoDozeIntervalWrite (p : PortIdx) (enable upWrite : Byte) (interval : BitVec 16) (s : State) :
    Host.Outcome State Fault Refusal :=
  .next (hostWrite (RecordId.port p).offset (controlGroup enable upWrite interval) s)

/-- DOZE_COMMAND: command 1 of the port (R106, R114). -/
def execDozeCommand (p : PortIdx) (s : State) : Host.Outcome State Fault Refusal :=
  .next (hostWrite ((RecordId.port p).offset + 0x08) (commandGroup 1) s)

/-- WAKE_COMMAND: command 2 of the port (R106, R120). -/
def execWakeCommand (p : PortIdx) (s : State) : Host.Outcome State Fault Refusal :=
  .next (hostWrite ((RecordId.port p).offset + 0x08) (commandGroup 2) s)

/-- PORT_RESET_COMMAND: command 3 of the port (R106). -/
def execPortResetCommand (p : PortIdx) (s : State) : Host.Outcome State Fault Refusal :=
  .next (hostWrite ((RecordId.port p).offset + 0x08) (commandGroup 3) s)

/-- EVENT_LINE_ENABLE_WRITE: the enable and the vector of the line (R151). -/
def execEventLineEnableWrite (i : LineIdx) (enable vector : Byte) (s : State) : Host.Outcome State Fault Refusal :=
  .next (hostWrite (RecordId.line i).offset (enable :: vector :: pad 2) s)

/-- ACK: command 1 of the line (R152). -/
def execAck (i : LineIdx) (s : State) : Host.Outcome State Fault Refusal :=
  .next (hostWrite ((RecordId.line i).offset + 0x04) (commandGroup 1) s)

/-- CLEAR: command 2 of the line (R153). -/
def execClear (i : LineIdx) (s : State) : Host.Outcome State Fault Refusal :=
  .next (hostWrite ((RecordId.line i).offset + 0x04) (commandGroup 2) s)

/-- POP: the 4-byte command 1 at 0x5028 (R164, R189). -/
def execPop (s : State) : Host.Outcome State Fault Refusal := .next (hostWrite 0x5028 (beBytes 4 1) s)

/-- DROPPED_COUNT_CLEAR: any value at 0x5024 (R163). -/
def execDroppedCountClear (value : BitVec 32) (s : State) : Host.Outcome State Fault Refusal :=
  .next (hostWrite 0x5024 (beBytes 4 value.toNat) s)

/-- The offset of a link's frames out counter (R189). -/
def counterOffset : Link → Nat
  | .trunk => RecordId.trunk.offset + 0x08
  | .branch p => (RecordId.port p).offset + 0x1C

/-- COUNTER_CLEAR: `count` counters from number `first` on, each written with `value` (R179). -/
def execCounterClear (l : Link) (first count : Nat) (value : BitVec 32) (s : State) : Host.Outcome State Fault Refusal :=
  .next (hostWrite (counterOffset l + 4 * first) (List.replicate count (beBytes 4 value.toNat)).flatten s)

/-- MANAGEMENT_WRITE: any data at any offset of the aperture (R171 to R174). -/
def execManagementWrite (offset : BitVec 16) (data : List Byte) (s : State) : Host.Outcome State Fault Refusal :=
  .next (hostWrite offset.toNat data s)

end Sys2Proof.Machine
end

