-- ==== Sys2Proof/Machine/LinkFrames.lean ====
section
/-! DEFINITION. The meanings of the frames that any link receives: CRC_ERROR, SYNC_RECEIVED, SYNC_ACK_RECEIVED, CREDIT_RECEIVED, DISALLOWED_KIND_FRAME, and of the host's frames TRUNK_INGRESS_FRAME and TRUNK_RESET. -/

namespace Sys2Proof.Machine

/-- A link enters UP, ending a training, a doze wait or a wake: its deadlines of those states and what was due in
them end (R88, R89, R110, R118, R120). -/
def setUp : Link → State → State
  | .trunk, s => { s with trunkState := .up }
  | .branch p, s =>
    s.modPort p fun b =>
      { b with state := .up, answer := none, wake := none, dozeReqDue := false, wakeDue := false }

/-- The link end when a training completes: no SYNC counted or due, no resend deadline (R88, R89, log 6). -/
def LinkEnd.trained (e : LinkEnd) : LinkEnd := { e with syncsSent := 0, resend := none, syncDue := false }

/-- What follows an entry to UP: a port that is idle sets its idle deadline (R113); on the trunk the admission
arbiter resumes its grants (R141). -/
def afterUp : Link → State → State
  | .trunk, s => settle s
  | .branch p, s => refreshIdle p s

/-- A valid SYNC ends a training, a doze wait or a wake: capacities adopted, UP, a SYNC-ACK due (R89, R118 to R120). -/
def syncToUp (l : Link) (a b : Byte) (s : State) : State :=
  afterUp l ((setUp l s).modLink l fun e => { (e.adopt a b).trained with syncAckDue := true })

/-- A valid SYNC in UP: the capacities are adopted and a SYNC-ACK becomes due; the link stays UP (R90). In
DOZE_WAIT the port returns to UP (R118). -/
def syncWhenLive (l : Link) (a b : Byte) (s : State) : State :=
  match l with
  | .trunk => s.modLink .trunk fun e => { e.adopt a b with syncAckDue := true }
  | .branch p =>
    if (s.port p).state = .up then s.modLink (.branch p) fun e => { e.adopt a b with syncAckDue := true }
    else syncToUp (.branch p) a b s

/-- A SYNC by the link's state (R89, R90, R97, R98, R118 to R120). -/
def receiveSync (l : Link) (size : Nat) (a b : Byte) (s : State) : State :=
  let ok := validSync l size a b
  let orElse := fun (bad good : State → State) => if ok then good else bad
  receive l size
    (orElse (discardFrame l) (syncToUp l a b))
    (orElse (frameInvalid l 0x80 none) (syncWhenLive l a b))
    (orElse (frameInvalid l 0x80 none) (syncToUp l a b))
    (orElse (discardFrame l) (syncToUp l a b)) s

/-- A valid SYNC-ACK in TRAINING: capacities adopted, UP, and CREDIT pending set if a consumption count is not 0 (R88). -/
def syncAckToUp (l : Link) (a b : Byte) (s : State) : State :=
  afterUp l ((setUp l s).modLink l fun e =>
    { (e.adopt a b).trained with creditPending := e.creditPending || e.consumedA ≠ 0 || e.consumedB ≠ 0 })

/-- A SYNC-ACK by the link's state; in UP a valid one is ignored (R88, R90, R97, R119, R120). -/
def receiveSyncAck (l : Link) (size : Nat) (a b : Byte) (s : State) : State :=
  let ok := validSync l size a b
  receive l size
    (if ok then syncAckToUp l a b else discardFrame l)
    (if ok then id else frameInvalid l 0x90 none)
    (frameInvalid l 0x90 none) (discardFrame l) s

/-- The partner's counts become the reported consumption; on the trunk B is ignored (R94, R128). -/
def LinkEnd.report (l : Link) (a b : Byte) (e : LinkEnd) : LinkEnd :=
  match l with
  | .trunk => { e with reportedA := a }
  | .branch _ => { e with reportedA := a, reportedB := b }

/-- A CREDIT by the link's state (R94, R97, R119, R120). -/
def receiveCredit (l : Link) (size : Nat) (a b : Byte) (s : State) : State :=
  receive l size (discardFrame l)
    (fun s => if validCredit l (s.linkEnd l) size a b then s.modLink l (LinkEnd.report l a b)
      else frameInvalid l 0xA0 none s)
    (frameInvalid l 0xA0 none) (discardFrame l) s

/-- A trunk RESET: a router reset, the strap-default aperture, the ingress queue emptied, and the trunk in
TRAINING with a SYNC due (R133). -/
def trunkReset (s : State) : State :=
  startTraining .trunk (dropIngress { clearRouter s with apertureBase := Config.strapDefault s.strapId })

/-- CRC_ERROR (R99). -/
def execCrcError (l : Link) (s : State) : Host.Outcome State Fault Refusal := .next (crcFail l s)

/-- TRUNK_INGRESS_FRAME (R97, R126). -/
def execTrunkIngressFrame (f : TrunkRequest) (s : State) : Host.Outcome State Fault Refusal := .next (receiveRequest f s)

/-- TRUNK_RESET (R133). -/
def execTrunkReset (size : Nat) (s : State) : Host.Outcome State Fault Refusal :=
  .next (receive .trunk size (discardFrame .trunk)
    (if size = 3 then trunkReset else frameInvalid .trunk 0xF0 none) id id s)

/-- SYNC_RECEIVED (R89, R90, R118 to R120). -/
def execSyncReceived (l : Link) (size : Nat) (a b : Byte) (s : State) : Host.Outcome State Fault Refusal :=
  .next (receiveSync l size a b s)

/-- SYNC_ACK_RECEIVED (R88, R90). -/
def execSyncAckReceived (l : Link) (size : Nat) (a b : Byte) (s : State) : Host.Outcome State Fault Refusal :=
  .next (receiveSyncAck l size a b s)

/-- CREDIT_RECEIVED (R94). -/
def execCreditReceived (l : Link) (size : Nat) (a b : Byte) (s : State) : Host.Outcome State Fault Refusal :=
  .next (receiveCredit l size a b s)

/-- DISALLOWED_KIND_FRAME: discarded with FRAME_INVALID in UP, DOZE_WAIT and DOZE, and without a record in
TRAINING and WAKING; not consumed (R97, R98, R119, R120). -/
def execDisallowedKindFrame (l : Link) (size : Nat) (kind : Byte) (s : State) : Host.Outcome State Fault Refusal :=
  .next (receive l size (discardFrame l) (frameInvalid l kind none) (frameInvalid l kind none) (discardFrame l) s)

end Sys2Proof.Machine
end

