-- ==== Sys2Proof/Machine/ModuleFrames.lean ====
section
/-! DEFINITION. The meanings of the frames that a module sends: MODULE_WRITE_ARRIVAL, BRANCH_RESULT_ARRIVAL, EVENT_FRAME, DOZE_ACK, MODULE_WAKE. -/

namespace Sys2Proof.Machine

/-- A module address in a 40-bit item, its upper 8 bits zero (R123, R159). -/
def moduleAddress (a : ModuleAddr) : HostAddr := a.setWidth 40

/-- The host address of a module WRITE in whole numbers (R123). -/
def PortBlock.hostAddress (b : PortBlock) (a : ModuleAddr) : Nat := a.toNat + b.upOffset.toNat

/-- A module WRITE that is discarded with a record of its address and length; it counts as consumed (R93, R123). -/
def refuseUpWrite (kind : FaultKind) (p : PortIdx) (length : Nat) (a : ModuleAddr) (s : State) : State :=
  recordFault kind (.branch p) none none (some (moduleAddress a)) (some (.one (BitVec.ofNat 16 length)))
    (s.consume (.branch p) .a)

/-- A WRITE enters the upstream-write buffer, its port stops being idle, and its claim is served at once where a
slot of the general queue is free (R113, R123, R124, R141). -/
def bufferWrite (p : PortIdx) (w : UpWrite) (s : State) : State :=
  settle (refreshIdle p (s.modPort p fun b => { b with buffer := b.buffer ++ [w] }))

/-- A valid module WRITE in UP or DOZE_WAIT: credit, then the steps of R123 (R96, R123). -/
def acceptUpWrite (p : PortIdx) (length : Nat) (a : ModuleAddr) (data : List Byte) (s : State) : State :=
  let b := s.port p
  if s.freeA (.branch p) = 0 then creditOverrun (.branch p) .a none (moduleAddress a) s
  else if !b.upWriteEnable then refuseUpWrite .upWriteBlocked p length a s
  else if b.hostAddress a + length - 1 ≤ 0xFFFFFFFFFF then
    bufferWrite p ⟨BitVec.ofNat 40 (b.hostAddress a), length, data⟩ s
  else refuseUpWrite .upWriteRange p length a s

/-- The entry that a RESULT on a port with a branch ticket matches: SENT, same port, same epoch (R69). -/
def State.matchResult (s : State) (p : PortIdx) (ticket : Byte) : Option (EntryIdx × Live) :=
  let i : EntryIdx := Fin.ofNat 16 (ticket.toNat / 4)
  let e := s.entry i
  match e.live with
  | some v =>
    match v.stage with
    | .sent r => if r.port = p ∧ e.epoch.toNat = ticket.toNat % 4 then some (i, v) else none
    | _ => none
  | none => none

/-- The status that a received status code is relayed as, when it is not OK (R69). -/
def relayedStatus (code : BitVec 3) : Status :=
  if code = 1 then .unclaimed else if code = 2 then .refused else if code = 3 then .expired else .damaged

/-- A matched RESULT forms the reply; an OK one of the wrong data count gives DAMAGED with a RESULT_LENGTH
record (R69, R71). -/
def matchedResult (i : EntryIdx) (v : Live) (status : BitVec 3) (count : Byte) (data : List Byte) (s : State) : State :=
  if status = 0 then
    if count.toNat = v.length then toReplying i .ok data s
    else recordFault .resultLength .tickets v.window (some v.ticket) (some v.address)
      (some (.one (count.setWidth 16))) (toReplying i .damaged [] s)
  else toReplying i (relayedStatus status) [] s

/-- A RESULT that does not match: the port's stale counter and a STALE_RESULT record (R70). -/
def staleResult (p : PortIdx) (ticket : Byte) (s : State) : State :=
  recordFault .staleResult (.branch p) none none none (some (.one (ticket.setWidth 16)))
    (s.modPort p fun b => { b with stale := b.stale + 1 })

/-- A RESULT in UP or DOZE_WAIT: validity, then the ticket table takes it; it is consumed whatever its fate (R69
to R71, R98, R125). -/
def acceptResult (p : PortIdx) (size : Nat) (status : BitVec 3) (ticket count : Byte) (data : List Byte) (s : State) : State :=
  if validResult size ticket count data then
    let s := s.consume (.branch p) .b
    match s.matchResult p ticket with
    | some (i, v) => refreshIdle p (matchedResult i v status count data s)
    | none => staleResult p ticket s
  else frameInvalid (.branch p) (0x30#8 ||| status.setWidth 8) (some .b) s

/-- The line of a module's event code (R125, R146). -/
def eventLine (p : PortIdx) (code : BitVec 3) : LineIdx := Fin.ofNat 33 (8 * p.val + code.toNat)

/-- A valid DOZE-ACK: DOZE_WAIT becomes DOZE, or WAKING with a WAKE due if the queue is not empty; in UP a WAKE
becomes due (R116). A DOZE-ACK in UP while a WAKE is still due makes no second one due: the model keeps one flag, which is
its choice (log 34). A frame that is still in transmission at the entry to DOZE or WAKING runs on to its end, where R95 and
R119 leave it open: the model's choice (log 35). -/
def acceptDozeAck (p : PortIdx) (s : State) : State :=
  let b := s.port p
  if b.state = .up then s.modPort p fun b => { b with wakeDue := true }
  else if b.queue.isEmpty then
    s.modPort p fun b =>
      { b with state := .doze, answer := none, dozeReqDue := false, link := { b.link with syncAckDue := false } }
  else enterWaking true p s

/-- MODULE_WRITE_ARRIVAL (R96 to R98, R119, R120, R123). -/
def execModuleWriteArrival (p : PortIdx) (size : Nat) (length : Byte) (address : ModuleAddr) (data : List Byte)
    (s : State) : Host.Outcome State Fault Refusal :=
  .next (receive (.branch p) size (discardFrame (.branch p))
    (if validWrite size 8 length data then acceptUpWrite p length.toNat address data
      else frameInvalid (.branch p) 0x10 (some .a))
    (frameInvalid (.branch p) 0x10 (some .a)) (discardFrame (.branch p)) s)

/-- BRANCH_RESULT_ARRIVAL (R69 to R71, R98, R119, R120, R125). -/
def execBranchResultArrival (p : PortIdx) (size : Nat) (status : BitVec 3) (branchTicket dataCount : Byte)
    (data : List Byte) (s : State) : Host.Outcome State Fault Refusal :=
  .next (receive (.branch p) size (discardFrame (.branch p)) (acceptResult p size status branchTicket dataCount data)
    (frameInvalid (.branch p) (0x30#8 ||| status.setWidth 8) (some .b)) (discardFrame (.branch p)) s)

/-- EVENT_FRAME (R98, R119, R120, R125, R146). -/
def execEventFrame (p : PortIdx) (size : Nat) (code : BitVec 3) (s : State) : Host.Outcome State Fault Refusal :=
  let bad := frameInvalid (.branch p) (0x40#8 ||| code.setWidth 8) none
  .next (receive (.branch p) size (discardFrame (.branch p))
    (if size = 3 then arrival (eventLine p code) else bad) bad (discardFrame (.branch p)) s)

/-- DOZE_ACK (R116, R119, R120). -/
def execDozeAck (p : PortIdx) (size : Nat) (s : State) : Host.Outcome State Fault Refusal :=
  let bad := frameInvalid (.branch p) 0xB1 none
  .next (receive (.branch p) size (discardFrame (.branch p))
    (if size = 3 then acceptDozeAck p else bad) bad (discardFrame (.branch p)) s)

/-- MODULE_WAKE: in DOZE the port enters WAKING with no WAKE due; in UP and DOZE_WAIT it is counted alone (R116,
R119, R120). -/
def execModuleWake (p : PortIdx) (size : Nat) (s : State) : Host.Outcome State Fault Refusal :=
  let bad := frameInvalid (.branch p) 0xC0 none
  .next (receive (.branch p) size (discardFrame (.branch p))
    (if size = 3 then id else bad) (if size = 3 then enterWaking false p else bad) (discardFrame (.branch p)) s)

end Sys2Proof.Machine
end

