-- ==== Sys2Proof/Machine/Power.lean ====
section
/-! DEFINITION. The meanings of the reset pin, the reference clock and the receivers' signal reports: POR_ASSERT, POR_RELEASE, ROUTER_TIME_TICK, SIGNAL_LOST, SIGNAL_PRESENT. -/

namespace Sys2Proof.Machine

/-- POR_N low: nothing is kept but the sampled strap ID, and no link is driven (R168, R184). -/
def powerDown (s : State) : State := State.blank false s.strapId s.pending

/-- POR_N released: every block at its power-on values, then the trunk enters TRAINING and transmits its first
SYNC (R87, R185). -/
def powerUp (strap : BitVec 2) (s : State) : State := startTraining .trunk (State.blank true strap s.pending)

/-- The strap ID that the pins spell, ID1 the more significant bit (R168, R190). -/
def strapOf (id1 id0 : Bool) : BitVec 2 := BitVec.ofBool id1 ++ BitVec.ofBool id0

/-- A link's receiver reports its signal lost: present becomes absent; a link in TRAINING, UP or a doze state
enters DOWN with SIGNAL_LOST (R100, R122, R130, R190). -/
def loseSignal (l : Link) (s : State) : State :=
  if (s.linkEnd l).signal then
    let gone := s.modLink l fun e => { e with signal := false }
    match l with
    | .trunk =>
      match s.trunkState with
      | .down => gone
      | .training => settle (trunkLoss .signalLost gone)
      | .up => settle (trunkLoss .signalLost gone)
    | .branch p => if (s.port p).state.accepts then settle (portFail .signalLost p gone) else gone
  else s

/-- POR_ASSERT (R184). -/
def execPorAssert (s : State) : Host.Outcome State Fault Refusal := .next (powerDown s)

/-- POR_RELEASE (R185). -/
def execPorRelease (id1 id0 : Bool) (s : State) : Host.Outcome State Fault Refusal := .next (powerUp (strapOf id1 id0) s)

/-- SIGNAL_LOST (R100, R122). -/
def execSignalLost (l : Link) (s : State) : Host.Outcome State Fault Refusal := .next (whenPowered (loseSignal l) s)

/-- SIGNAL_PRESENT: the report alone (R190). -/
def execSignalPresent (l : Link) (s : State) : Host.Outcome State Fault Refusal :=
  .next (whenPowered (fun s => s.modLink l fun e => { e with signal := true }) s)

/-- Router time advances by one and wraps (R176). Failing heads that trunk loss uncovered end at the tick after it, a
happening that the model chooses (log 16); in every other state the tick changes router time alone. -/
def tick (s : State) : State :=
  let now := { s with time := s.time + 1 }
  if (List.finRange 24).any s.headFails then settle (grantAll (examineAll now)) else now

/-- ROUTER_TIME_TICK; while POR_N is low router time stays (R176). -/
def execRouterTimeTick (s : State) : Host.Outcome State Fault Refusal := .next (whenPowered tick s)

end Sys2Proof.Machine
end

