-- ==== Sys2Proof/Machine/Transmit.lean ====
section
/-! DEFINITION. The meanings of the transmitters' takings: SYNC_TRANSMIT, SYNC_ACK_TRANSMIT, CREDIT_TRANSMIT, DOZE_REQ_TRANSMIT, WAKE_TRANSMIT, BRANCH_EGRESS_TRANSMIT, REPLY_LANE_TRANSMIT, GENERAL_QUEUE_TRANSMIT, TRANSMITTER_FREE. A frame that is not ready, or not first in the order of R95, is not taken (log 3). -/

namespace Sys2Proof.Machine

/-- A deferred SYNC goes out once the transmitter is free (R86, R87). -/
def syncReady (s : State) (l : Link) : Bool := s.linkTraining l && (s.linkEnd l).syncDue && s.txFree l

/-- A SYNC-ACK that is due can be taken (R89, R90, R95). -/
def syncAckReady (s : State) (l : Link) : Bool := s.linkLive l && (s.linkEnd l).syncAckDue && s.txFree l

/-- A SYNC-ACK is transmitted: free capacities, consumption counts 0, CREDIT pending cleared (R86, R89). -/
def sendSyncAck (l : Link) (s : State) : State :=
  s.modLink l fun e =>
    { e.transmit (.syncAck (BitVec.ofNat 8 (s.freeA l)) (BitVec.ofNat 8 (s.freeB l))) with
      consumedA := 0, consumedB := 0, creditPending := false, syncAckDue := false }

/-- A CREDIT that is due can be taken, after any SYNC-ACK (R93, R95). -/
def creditReady (s : State) (l : Link) : Bool :=
  s.linkLive l && (s.linkEnd l).creditPending && !(s.linkEnd l).syncAckDue && s.txFree l

/-- A CREDIT is transmitted with the consumption counts (R93). -/
def sendCredit (l : Link) (s : State) : State :=
  s.modLink l fun e => { e.transmit (.credit e.consumedA e.consumedB) with creditPending := false }

/-- A frame of a branch after link control (R95). -/
def branchReady (s : State) (p : PortIdx) : Bool := s.txFree (.branch p) && !s.controlDue (.branch p)

/-- A DOZE-REQ that is due can be taken (R110, R115). -/
def dozeReqReady (s : State) (p : PortIdx) : Bool :=
  (s.port p).state == .dozeWait && (s.port p).dozeReqDue && branchReady s p

/-- The DOZE-REQ is transmitted, and the answer deadline set 200 microseconds on (R115). -/
def sendDozeReq (p : PortIdx) (s : State) : State :=
  s.modPort p fun b =>
    { b with link := b.link.transmit .dozeReq, dozeReqDue := false, answer := some (s.time + Config.answerLimit) }

/-- A WAKE that is due can be taken, in UP or WAKING (R110). -/
def wakeReady (s : State) (p : PortIdx) : Bool :=
  ((s.port p).state == .up || (s.port p).state == .waking) && (s.port p).wakeDue && branchReady s p

/-- The WAKE is transmitted (R110). -/
def sendWake (p : PortIdx) (s : State) : State :=
  s.modPort p fun b => { b with link := b.link.transmit .wake, wakeDue := false }

/-- The frame of a queued request (R109, R187). -/
def State.requestTx (s : State) (q : Queued) : TxFrame :=
  match q.body with
  | .read i => .moduleRead (s.branchTicket i) q.length q.address
  | .write d => .moduleWrite q.address d

/-- The head of a branch egress queue that the transmitter can take: the port is UP, nothing goes ahead of it, and
its class has credit (R95, R109). -/
def State.egressReady (s : State) (p : PortIdx) : Option Queued :=
  let b := s.port p
  match b.queue with
  | [] => none
  | q :: _ =>
    if b.state = .up ∧ branchReady s p ∧ !b.wakeDue ∧ b.link.credit q.body.cls ≠ 0 then some q else none

/-- A transmitted READ's entry goes from QUEUED to SENT and joins its port's sent order (R68). -/
def markSent (p : PortIdx) (b : ReqBody) (s : State) : State :=
  match b with
  | .write _ => s
  | .read i =>
    match (s.entry i).live with
    | some v =>
      match v.stage with
      | .queued r => (setStage i (.sent r) s).setSentOf p (s.sentOf p ++ [i])
      | _ => s
    | none => s

/-- The head of a branch egress queue is transmitted, and its slot granted: draining windows, then the decoder
(R34, R68, R109). -/
def sendEgress (p : PortIdx) (q : Queued) (s : State) : State :=
  let f := s.requestTx q
  let s := s.modPort p fun b =>
    { b with queue := b.queue.tail, link := (b.link.transmit f).countSent q.body.cls }
  settle (refreshIdle p (grantWindows p (markSent p q.body s)))

/-- Trunk egress may offer a frame: UP, the transmitter free, no SYNC-ACK or CREDIT due (R137). -/
def State.trunkOffers (s : State) : Bool := s.trunkState == .up && s.txFree .trunk && !s.controlDue .trunk

/-- The reply lane's head can be offered (R137). -/
def State.replyOffer (s : State) : Bool := !s.replyLane.isEmpty && s.trunk.credit .a ≠ 0

/-- The general queue's head can be offered: a NOTICE always, a RESULT or WRITE with credit (R137). -/
def State.generalOffer (s : State) : Bool :=
  match s.generalQueue with
  | [] => false
  | .notice _ :: _ => true
  | _ :: _ => s.trunk.credit .a ≠ 0

/-- The transmitter takes the reply lane's head: it can be offered, and it is its turn (R137, R138). -/
def State.replyReady (s : State) : Bool :=
  s.trunkOffers && s.replyOffer && (!s.generalOffer || s.laneLast == .general)

/-- The transmitter takes the general queue's head (R137, R138). -/
def State.generalReady (s : State) : Bool :=
  s.trunkOffers && s.generalOffer && (!s.replyOffer || s.laneLast == .reply)

/-- The RESULT of an entry in REPLYING (R75, R135). -/
def State.answerOf (s : State) (i : EntryIdx) : TxFrame :=
  match (s.entry i).live with
  | some v =>
    match v.stage with
    | .replying _ st data => .result v.ticket st data
    | _ => .result v.ticket .damaged []
  | none => .result 0 .damaged []

/-- The head answer of the reply lane is transmitted: its entry becomes FREE with its epoch, INBOUND counts, and
the decoder examines a waiting head again (R53, R76, R137, R138). -/
def sendReply (s : State) : State :=
  match s.replyLane with
  | [] => s
  | i :: rest =>
    let t := (s.trunk.transmit (s.answerOf i)).countSent .a
    settle { s.setEntry i { s.entry i with live := none } with replyLane := rest, laneLast := .reply, trunk := t }

/-- The frame that leaves the general queue, and whether it uses INBOUND credit (R128, R136, R187). -/
def GeneralFrame.tx : GeneralFrame → TxFrame
  | .result t st data => .result t st data
  | .write w => .hostWrite w.address w.data
  | .notice v => .notice v

def GeneralFrame.inbound : GeneralFrame → Bool
  | .notice _ => false
  | _ => true

/-- The head of the general queue is transmitted, and its slot granted by the admission arbiter (R137, R138, R141). -/
def sendGeneral (s : State) : State :=
  match s.generalQueue with
  | [] => s
  | f :: rest =>
    let t := s.trunk.transmit f.tx
    settle { s with
      generalQueue := rest
      laneLast := .general
      trunk := if f.inbound then t.countSent .a else t }

/-- SYNC_TRANSMIT (R86, R87). -/
def execSyncTransmit (l : Link) (s : State) : Host.Outcome State Fault Refusal :=
  .next (whenPowered (fun s => if syncReady s l then sendSync l s else s) s)

/-- SYNC_ACK_TRANSMIT (R86, R89). -/
def execSyncAckTransmit (l : Link) (s : State) : Host.Outcome State Fault Refusal :=
  .next (whenPowered (fun s => if syncAckReady s l then sendSyncAck l s else s) s)

/-- CREDIT_TRANSMIT (R93). -/
def execCreditTransmit (l : Link) (s : State) : Host.Outcome State Fault Refusal :=
  .next (whenPowered (fun s => if creditReady s l then sendCredit l s else s) s)

/-- DOZE_REQ_TRANSMIT (R110, R115). -/
def execDozeReqTransmit (p : PortIdx) (s : State) : Host.Outcome State Fault Refusal :=
  .next (whenPowered (fun s => if dozeReqReady s p then sendDozeReq p s else s) s)

/-- WAKE_TRANSMIT (R110). -/
def execWakeTransmit (p : PortIdx) (s : State) : Host.Outcome State Fault Refusal :=
  .next (whenPowered (fun s => if wakeReady s p then sendWake p s else s) s)

/-- BRANCH_EGRESS_TRANSMIT (R68, R109). -/
def execBranchEgressTransmit (p : PortIdx) (s : State) : Host.Outcome State Fault Refusal :=
  .next (whenPowered (fun s => match s.egressReady p with
    | some q => sendEgress p q s
    | none => s) s)

/-- REPLY_LANE_TRANSMIT (R76, R137, R138). -/
def execReplyLaneTransmit (s : State) : Host.Outcome State Fault Refusal :=
  .next (whenPowered (fun s => if s.replyReady then sendReply s else s) s)

/-- GENERAL_QUEUE_TRANSMIT (R137, R138). -/
def execGeneralQueueTransmit (s : State) : Host.Outcome State Fault Refusal :=
  .next (whenPowered (fun s => if s.generalReady then sendGeneral s else s) s)

/-- TRANSMITTER_FREE: the frame in transmission ends, and what is ready may be taken (R95, R137). -/
def execTransmitterFree (l : Link) (s : State) : Host.Outcome State Fault Refusal :=
  .next (whenPowered (fun s => s.modLink l fun e => { e with transmitting := none }) s)

end Sys2Proof.Machine
end

