-- ==== Sys2Proof/Machine/Dispatch.lean ====
section
/-! DEFINITION. One arm for each command of the table. -/

namespace Sys2Proof.Machine

/-- The effect of a command on everything but the queue of commands. -/
def exec (i : Instr) (s : State) : Host.Outcome State Fault Refusal :=
  match i with
  | .porAssert => Sys2Proof.Machine.execPorAssert s
  | .porRelease id1 id0 => Sys2Proof.Machine.execPorRelease id1 id0 s
  | .signalLost l => Sys2Proof.Machine.execSignalLost l s
  | .crcError l => Sys2Proof.Machine.execCrcError l s
  | .trunkIngressFrame f => Sys2Proof.Machine.execTrunkIngressFrame f s
  | .trunkReset size => Sys2Proof.Machine.execTrunkReset size s
  | .syncReceived l size a b => Sys2Proof.Machine.execSyncReceived l size a b s
  | .syncAckReceived l size a b => Sys2Proof.Machine.execSyncAckReceived l size a b s
  | .creditReceived l size a b => Sys2Proof.Machine.execCreditReceived l size a b s
  | .moduleWriteArrival p size length address data => Sys2Proof.Machine.execModuleWriteArrival p size length address data s
  | .branchResultArrival p size status branchTicket dataCount data => Sys2Proof.Machine.execBranchResultArrival p size status branchTicket dataCount data s
  | .eventFrame p size code => Sys2Proof.Machine.execEventFrame p size code s
  | .dozeAck p size => Sys2Proof.Machine.execDozeAck p size s
  | .moduleWake p size => Sys2Proof.Machine.execModuleWake p size s
  | .resendDeadline l => Sys2Proof.Machine.execResendDeadline l s
  | .retryDeadline l => Sys2Proof.Machine.execRetryDeadline l s
  | .ticketDeadline n => Sys2Proof.Machine.execTicketDeadline n s
  | .headWaitDeadline => Sys2Proof.Machine.execHeadWaitDeadline s
  | .answerDeadline p => Sys2Proof.Machine.execAnswerDeadline p s
  | .wakeDeadline p => Sys2Proof.Machine.execWakeDeadline p s
  | .idleDeadline p => Sys2Proof.Machine.execIdleDeadline p s
  | .syncTransmit l => Sys2Proof.Machine.execSyncTransmit l s
  | .syncAckTransmit l => Sys2Proof.Machine.execSyncAckTransmit l s
  | .creditTransmit l => Sys2Proof.Machine.execCreditTransmit l s
  | .dozeReqTransmit p => Sys2Proof.Machine.execDozeReqTransmit p s
  | .wakeTransmit p => Sys2Proof.Machine.execWakeTransmit p s
  | .branchEgressTransmit p => Sys2Proof.Machine.execBranchEgressTransmit p s
  | .replyLaneTransmit => Sys2Proof.Machine.execReplyLaneTransmit s
  | .generalQueueTransmit => Sys2Proof.Machine.execGeneralQueueTransmit s
  | .windowRecordWrite w bytes => Sys2Proof.Machine.execWindowRecordWrite w bytes s
  | .apertureBaseWrite value => Sys2Proof.Machine.execApertureBaseWrite value s
  | .ticketLifetimeWrite value => Sys2Proof.Machine.execTicketLifetimeWrite value s
  | .headWaitLimitWrite value => Sys2Proof.Machine.execHeadWaitLimitWrite value s
  | .routerReset => Sys2Proof.Machine.execRouterReset s
  | .portEnable p enable upWrite interval => Sys2Proof.Machine.execPortEnable p enable upWrite interval s
  | .autoDozeIntervalWrite p enable upWrite interval => Sys2Proof.Machine.execAutoDozeIntervalWrite p enable upWrite interval s
  | .dozeCommand p => Sys2Proof.Machine.execDozeCommand p s
  | .wakeCommand p => Sys2Proof.Machine.execWakeCommand p s
  | .portResetCommand p => Sys2Proof.Machine.execPortResetCommand p s
  | .eventLineEnableWrite n enable vector => Sys2Proof.Machine.execEventLineEnableWrite n enable vector s
  | .ack n => Sys2Proof.Machine.execAck n s
  | .clear n => Sys2Proof.Machine.execClear n s
  | .pop => Sys2Proof.Machine.execPop s
  | .droppedCountClear value => Sys2Proof.Machine.execDroppedCountClear value s
  | .counterClear l first count value => Sys2Proof.Machine.execCounterClear l first count value s
  | .managementWrite offset data => Sys2Proof.Machine.execManagementWrite offset data s
  | .signalPresent l => Sys2Proof.Machine.execSignalPresent l s
  | .routerTimeTick => Sys2Proof.Machine.execRouterTimeTick s
  | .transmitterFree l => Sys2Proof.Machine.execTransmitterFree l s
  | .disallowedKindFrame l size kind => Sys2Proof.Machine.execDisallowedKindFrame l size kind s

end Sys2Proof.Machine
end

