-- ==== Sys2Proof/Machine/Step.lean ====
section
/-! DEFINITION. One step of the block: the command at the front of the queue runs on the state with the queue's rest, and an empty queue leaves the block idle (log 2). -/

namespace Sys2Proof.Machine

/-- The state with `rest` as the queue of waiting commands. -/
def State.withPending (s : State) (rest : List Instr) : State := { s with pending := rest }

/-- One step: the front command on the queue's rest; an empty queue idles (log 2). -/
def step (s : State) : Host.Outcome State Fault Refusal :=
  match s.pending with
  | [] => .next s
  | c :: rest => exec c (s.withPending rest)

/-- The command that a table word spells, put at the front of the queue; no row of the table gives bits, so no
word spells one and the state is as it was. -/
def State.withFetchWord (s : State) (nbits w : Nat) : State :=
  match decodeTableWord nbits w with
  | none => s
  | some c => s.withPending (c :: s.pending)

end Sys2Proof.Machine
end

