-- ==== Sys2Proof/Safety.lean ====
section
/-! DEFINITION. What a good state is, in the terms that claims use: the invariants that the rules give the state between two happenings, and the conditions under which a management write is taken at its arrival. -/

namespace Sys2Proof.Machine

/-! ### Windows, control fields and bounds -/

/-- An enabled record satisfies the eight conditions of R8 (R9). -/
def State.windowsValid (s : State) : Prop := ∀ w, (s.window w).enable = true → (s.window w).valid = true

/-- A window that is disabled or in REFUSE holds no request (R3). -/
def State.listsFit (s : State) : Prop :=
  ∀ w, (s.window w).enable = false ∨ (s.window w).mode = .refuse → s.holdList w = []

/-- The control fields hold values of their ranges (R59, R65, R104, R167). -/
def State.controlValid (s : State) : Prop :=
  s.apertureBase.toNat % 0x10000 = 0 ∧
  16 ≤ s.ticketLifetime.toNat ∧ s.ticketLifetime.toNat ≤ 1048575 ∧
  s.headWaitLimit.toNat ≤ 65535 ∧
  ∀ p, (s.port p).autoDoze.toNat ≤ 255 ∧ 10 ≤ (s.port p).wakeLimit.toNat

/-- The fault log holds at most 16 records (R160). -/
def State.logBounded (s : State) : Prop := s.faultLog.length ≤ 16

/-- WRITEs and READs of the trunk ingress queue. -/
def State.ingressCount (s : State) (isRead : Bool) : Nat := (s.ingress.filter fun f => f.body.isRead == isRead).length

/-- No queue, list or buffer holds more than its slots (R23, R96, R108, R123, R136). -/
def State.queuesBounded (s : State) : Prop :=
  s.heldTotal ≤ 16 ∧ s.ingressCount false ≤ 16 ∧ s.ingressCount true ≤ 8 ∧ s.generalQueue.length ≤ 8 ∧
  ∀ p, (s.port p).queue.length ≤ 8 ∧ (s.port p).buffer.length ≤ 2

/-! ### Ticket entries and the places of their READs -/

/-- No two live entries carry one host ticket (R62). -/
def State.ticketsDistinct (s : State) : Prop :=
  ∀ i j t, s.ticketOf i = some t → s.ticketOf j = some t → i = j

/-- The READs of a hold list, oldest first. -/
def heldReads (h : List Held) : List EntryIdx :=
  h.filterMap fun x => match x.body with
    | .read i => some i
    | .write _ => none

/-- An entry is in HELD for a window (R66). -/
def Entry.heldFor (e : Entry) (w : WindowIdx) : Bool :=
  match e.live with
  | some v => (match v.stage with | .held => true | _ => false) && v.window == some w
  | none => false

/-- An entry is in QUEUED and names a port (R67). -/
def Entry.queuedFor (e : Entry) (p : PortIdx) : Bool :=
  match e.live with
  | some v => match v.stage with
    | .queued r => r.port == p
    | _ => false
  | none => false

/-- An entry is in SENT and names a port (R68). -/
def Entry.sentFor (e : Entry) (p : PortIdx) : Bool :=
  match e.live with
  | some v => match v.stage with
    | .sent r => r.port == p
    | _ => false
  | none => false

/-- An entry is in REPLYING (R75). -/
def Entry.replies (e : Entry) : Bool :=
  match e.live with
  | some v => v.stage.isReplying
  | none => false

/-- An entry in HELD names a window (R61). -/
def Entry.heldNamed (e : Entry) : Bool :=
  match e.live with
  | some v => match v.stage with
    | .held => v.window.isSome
    | _ => true
  | none => true

/-- One where a condition holds, and none where it does not. -/
def once (b : Bool) : Nat := if b then 1 else 0

/-- Each entry stands in the one place that its state gives it, once, and nowhere else: HELD in the hold list of its
window (R25, R66), QUEUED in the branch egress queue of its port (R67), SENT in the sent order of its port (R68) and
REPLYING in the reply lane (R75). -/
def State.placed (s : State) : Prop :=
  ∀ i, (s.entry i).heldNamed = true ∧
    (∀ w, (heldReads (s.holdList w)).count i = once ((s.entry i).heldFor w)) ∧
    (∀ p, (queuedReads (s.port p).queue).count i = once ((s.entry i).queuedFor p)) ∧
    (∀ p, (s.sentOf p).count i = once ((s.entry i).sentFor p)) ∧
    s.replyLane.count i = once (s.entry i).replies

/-! ### Ports and links -/

/-- A port in OFF or DOWN holds nothing, and no entry in QUEUED or SENT names it (R111). -/
def State.portsQuiet (s : State) : Prop :=
  ∀ p, (s.port p).state.accepts = false →
    (s.port p).queue = [] ∧ (s.port p).buffer = [] ∧ ∀ i, (s.entry i).worksFor p = false

/-- The deadlines and due frames of a port stand only in the states that give them (R110, R113, R115, R120). -/
def State.portTimers (s : State) : Prop :=
  ∀ p, let b := s.port p
    (b.answer.isSome = true → b.state = .dozeWait) ∧
    (b.wake.isSome = true ↔ b.state = .waking) ∧
    (b.idle.isSome = true → b.state = .up) ∧
    (b.dozeReqDue = true → b.state = .dozeWait) ∧
    (b.wakeDue = true → b.state = .up ∨ b.state = .waking) ∧
    (b.dozeRequested = true → b.state = .up)

/-- The items of a link's training stand only in the link states that give them: a resend deadline in TRAINING and
a retry deadline in DOWN (R83), a deferred SYNC in TRAINING (R87), a due SYNC-ACK or CREDIT not in TRAINING or DOWN
(R87, R92); and no training sends more than 32 SYNCs (R91). -/
def State.linkTimers (s : State) : Prop :=
  ∀ l, let e := s.linkEnd l
    (e.resend.isSome = true ∨ e.syncDue = true → s.linkTraining l = true) ∧
    (e.retry.isSome = true → s.linkDown l = true) ∧
    (e.syncAckDue = true → s.linkLive l = true) ∧
    (e.creditPending = true → s.linkTraining l = false ∧ s.linkDown l = false) ∧
    e.syncsSent + once e.syncDue ≤ 32

/-- A port in UP keeps an idle deadline exactly while it is idle and its interval is not 0, and an idle port has no
doze requested (R113, R114). -/
def State.idleKept (s : State) : Prop :=
  ∀ p, (s.port p).state = .up →
    ((s.port p).idle.isSome = true ↔ s.portIdle p = true ∧ (s.port p).autoDoze ≠ 0) ∧
    ((s.port p).dozeRequested = true → s.portIdle p = false)

/-! ### Arbitration -/

/-- No claimant of the general queue waits while a slot is free and the trunk is UP (R141). -/
def State.admitted (s : State) : Prop := s.generalFree = true → ∀ c, s.claims c = false

/-- A decoder without a head has no deadline and no claim (R60). One with a head lacks a resource that the head's
fate needs, and its claim and matching window are those of that fate (R40, R42). -/
def State.headWaits (s : State) : Prop :=
  match s.ingress with
  | [] => s.decoder.deadline = none ∧ s.decoder.claim = .noClaim
  | f :: _ =>
    s.canTake f (s.fate f) = false ∧ s.decoder.claim = s.claimFor f (s.fate f) ∧
      s.decoder.lastWindow = (s.fate f).window

/-- No head of a draining window fails its examination (R27), and no draining window waits while a slot of its
port's queue is free (R34). -/
def State.drained (s : State) : Prop :=
  ∀ w h, s.windowState w = .drain → (s.holdList w).head? = some h →
    s.releaseFailure w h = none ∧ s.egressFree (s.window w).portIdx = false

/-- No draining window whose head passes its examination waits while a slot of its port's queue is free (R34). -/
def State.slotsGranted (s : State) : Prop :=
  ∀ w h, s.windowState w = .drain → (s.holdList w).head? = some h → s.releaseFailure w h = none →
    s.egressFree (s.window w).portIdx = false

/-! ### Frames and host writes -/

/-- The state in which the trunk takes a host frame at its arrival and the decoder is free: POR_N high, the signal
present, the trunk in UP, the trunk ingress queue empty, no claimant waiting for a free slot, and the aperture at a
64 KiB boundary (R97, R126, R141, R167). -/
def State.hostReady (s : State) : Prop :=
  s.porN = true ∧ s.trunk.signal = true ∧ s.trunkState = .up ∧ s.ingress = [] ∧ s.admitted ∧
  s.apertureBase.toNat % 0x10000 = 0

/-- What the taking of any WRITE at its arrival does beside its effect: the frame is counted and consumed, its credit
is due, and the decoder has no head (R55, R93, R101). -/
def State.writeTaken (s : State) : State :=
  { s with
    decoder := .clear
    trunk := { s.trunk with
      framesIn := s.trunk.framesIn + 1
      consumedA := s.trunk.consumedA + 1
      creditPending := true } }

/-- What the taking of a READ at its arrival does beside its effect (R55, R93, R101). -/
def State.readTaken (s : State) : State :=
  { s with
    decoder := .clear
    trunk := { s.trunk with
      framesIn := s.trunk.framesIn + 1
      consumedB := s.trunk.consumedB + 1
      creditPending := true } }

/-- A READ of `n` bytes as the host sends it, its fields agreeing with the frame (R98, R187). -/
def hostRead (t : BitVec 6) (n : Nat) (a : HostAddr) : TrunkRequest := .read 10 (t.setWidth 8) (BitVec.ofNat 8 n) a

/-- A WRITE as the host sends it, its fields agreeing with the frame (R98, R187). -/
def hostWriteFrame (a : HostAddr) (data : List Byte) : TrunkRequest :=
  .write (9 + data.length) (BitVec.ofNat 8 data.length) a data

/-- The frame that waits at the head after it arrived at a free decoder and was not taken (R40, R58). -/
def State.headArrived (s : State) (f : HostFrame) (claim : Claim) (window : Option WindowIdx) : State :=
  { s with
    trunk := { s.trunk with framesIn := s.trunk.framesIn + 1 }
    ingress := [f]
    decoder := ⟨if s.headWaitLimit = 0 then none else some (s.time + s.headWaitLimit), claim, window⟩ }

/-- The head of the trunk ingress queue is taken, whenever that comes about, beside its effect: it leaves the queue, the
decoder has no head, and its credit is returned, which makes a CREDIT due in UP (R54, R55, R93). -/
def State.headTaken (s : State) (isRead : Bool) : State :=
  { s with
    ingress := s.ingress.tail
    decoder := .clear
    trunk := { s.trunk with
      consumedA := if isRead then s.trunk.consumedA else s.trunk.consumedA + 1
      consumedB := if isRead then s.trunk.consumedB + 1 else s.trunk.consumedB
      creditPending := s.trunk.creditPending || s.trunkState == .up } }

/-! ### The shapes of effects -/

/-- A received frame that passes its CRC is counted (R97, R101). -/
def State.frameIn (s : State) (l : Link) : State :=
  s.setLink l { s.linkEnd l with framesIn := (s.linkEnd l).framesIn + 1 }

/-- An entry enters REPLYING with its answer at the tail of the reply lane; it keeps port and downstream address, and
leaves its port's sent order (R61, R68, R75). -/
def State.answered (s : State) (i : EntryIdx) (v : Live) (st : Status) (data : List Byte) : State :=
  { s.setEntry i ⟨(s.entry i).epoch, some { v with stage := .replying v.stage.route st data }⟩ with
    replyLane := s.replyLane ++ [i]
    sentOrder := mapVec (fun o => o.filter (· ≠ i)) s.sentOrder }

/-- A port whose queue takes a request at its tail: in UP it stops being idle (R113), in DOZE it enters WAKING with a
WAKE due (R119, R120). -/
def PortBlock.withRequest (b : PortBlock) (q : Queued) (now : Time) : PortBlock :=
  match b.state with
  | .doze =>
    { b with
      queue := b.queue ++ [q], state := .waking, wake := some (now + b.wakeLimit.setWidth 32), answer := none
      idle := none, dozeReqDue := false, wakeDue := true, link := { b.link with syncAckDue := false } }
  | .up => { b with queue := b.queue ++ [q], idle := none }
  | .off | .down | .training | .dozeWait | .waking => { b with queue := b.queue ++ [q] }

/-- A port at trunk loss: the READs leave its queue, and the requests `placed` into the freed slots join its tail. In DOZE
the placing starts a wake (R30, R119, R120). In UP a port that is left idle sets its idle deadline, or enters DOZE_WAIT where
doze is requested (R103, R113; log 33). -/
def PortBlock.afterLoss (b : PortBlock) (placed : List Queued) (now : Time) : PortBlock :=
  let b := { b with queue := (b.queue.filter fun (q : Queued) => !q.body.isRead) ++ placed }
  match b.state with
  | .doze =>
    if placed = [] then b
    else { b with
      state := .waking, wake := some (now + b.wakeLimit.setWidth 32), answer := none, idle := none, dozeReqDue := false
      wakeDue := true, link := { b.link with syncAckDue := false } }
  | .up =>
    if b.queue ≠ [] ∨ b.buffer ≠ [] then { b with idle := none }
    else if b.dozeRequested then
      { b with state := .dozeWait, idle := none, dozeRequested := false, dozeReqDue := true, wakeDue := false }
    else if b.idle = none ∧ b.autoDoze ≠ 0 then { b with idle := some (now + 1000 * b.autoDoze.setWidth 32) }
    else b
  | .off | .down | .training | .dozeWait | .waking => b

/-- An enabled window whose range contains an address (R1, R12). -/
def WindowRecord.serves (r : WindowRecord) (a : HostAddr) : Prop :=
  r.enable = true ∧ r.base.toNat ≤ a.toNat ∧ a.toNat ≤ r.limit.toNat

/-- The matching window of an address: the lowest-numbered one that serves it, or none (R12). -/
def State.matchedBy (s : State) (a : HostAddr) : Option WindowIdx → Prop
  | some w => (s.window w).serves a ∧ ∀ x, x < w → ¬(s.window x).serves a
  | none => ∀ x, ¬(s.window x).serves a

/-- The first failing check of a request outside the aperture, in the order of section 3.2: window lookup, crossing,
permission, mode REFUSE, and for a window whose mode is PASS the port (R12 to R15, R45, R46). -/
def State.decodeFault (s : State) (isRead : Bool) (a : HostAddr) (n : Nat) : Option WindowIdx → Option (FaultKind × Status)
  | none => some (.noWindow, .unclaimed)
  | some w =>
    let r := s.window w
    let port := (s.port r.portIdx).state
    if r.limit.toNat < a.toNat + n - 1 then some (.crossing, .refused)
    else if (isRead = true ∧ r.readPermit = false) ∨ (isRead = false ∧ r.writePermit = false) then
      some (.notPermitted, .refused)
    else if r.mode = .refuse then some (.windowRefused, .refused)
    else if r.mode = .pass ∧ (port = .off ∨ port = .down) then some (.portUnavailable, .unclaimed)
    else none

/-- The first failing check of the head of a draining window, in the order of R17 and R29: containment of its whole range,
permission, then the state of the port that the record names (R17, R28, R29; log 37). -/
def State.headFault (s : State) (w : WindowIdx) (h : Held) : Option (FaultKind × Status) :=
  let r := s.window w
  let port := (s.port r.portIdx).state
  if h.address.toNat < r.base.toNat ∨ r.limit.toNat < h.address.toNat + h.length - 1 then some (.crossing, .refused)
  else if (h.body.isRead = true ∧ r.readPermit = false) ∨ (h.body.isRead = false ∧ r.writePermit = false) then
    some (.notPermitted, .refused)
  else if port = .off ∨ port = .down then some (.portUnavailable, .unclaimed)
  else none

/-- The record that the bytes of a whole-record write carry, field by field, its mode given (R188). -/
def windowWritten (m : Mode) (bytes : Vector Byte 32) : WindowRecord where
  enable := bytes[0].getLsbD 0
  mode := m
  readPermit := bytes[0].getLsbD 1
  writePermit := bytes[0].getLsbD 2
  port := bytes[2]
  base := bytes[8] ++ bytes[9] ++ bytes[10] ++ bytes[11] ++ bytes[12]
  limit := bytes[16] ++ bytes[17] ++ bytes[18] ++ bytes[19] ++ bytes[20]
  target := bytes[24] ++ bytes[25] ++ bytes[26] ++ bytes[27]

/-- The mode that a mode byte names (R188). -/
def Mode.named (m : Mode) (b : Byte) : Prop :=
  match m with
  | .pass => b = 0
  | .hold => b = 1
  | .refuse => b = 2

/-- The credit class of a frame at the end that receives it, where it has one (R84). -/
def receiveClass : Instr → Option CreditClass
  | .trunkIngressFrame (.read ..) => some .b
  | .trunkIngressFrame (.write ..) => some .a
  | .moduleWriteArrival .. => some .a
  | .branchResultArrival .. => some .b
  | _ => none

/-- The checks of R98 and R94 on a frame of an allowed kind in UP, as a proposition on its fields; a kind that is not
allowed meets none. -/
def State.frameMeets (s : State) : Instr → Prop
  | .trunkIngressFrame (.read size t n _) => 1 ≤ n.toNat ∧ n.toNat ≤ 64 ∧ t.toNat ≤ 63 ∧ size = 10
  | .trunkIngressFrame (.write size n _ data) => 1 ≤ n.toNat ∧ n.toNat ≤ 64 ∧ size = 9 + n.toNat ∧ data.length = n.toNat
  | .moduleWriteArrival _ size n _ data => 1 ≤ n.toNat ∧ n.toNat ≤ 64 ∧ size = 8 + n.toNat ∧ data.length = n.toNat
  | .branchResultArrival _ size _ t n data => t.toNat ≤ 63 ∧ n.toNat ≤ 64 ∧ size = 5 + n.toNat ∧ data.length = n.toNat
  | .syncReceived .trunk size a _ => size = 5 ∧ a.toNat ≤ 64
  | .syncReceived (.branch _) size a b => size = 5 ∧ a.toNat ≤ 32 ∧ b.toNat ≤ 32
  | .syncAckReceived .trunk size a _ => size = 5 ∧ a.toNat ≤ 64
  | .syncAckReceived (.branch _) size a b => size = 5 ∧ a.toNat ≤ 32 ∧ b.toNat ≤ 32
  | .creditReceived .trunk size a _ => size = 5 ∧ (a - s.trunk.reportedA).toNat ≤ (s.trunk.sentA - s.trunk.reportedA).toNat
  | .creditReceived (.branch p) size a b =>
    let e := (s.port p).link
    size = 5 ∧ (a - e.reportedA).toNat ≤ (e.sentA - e.reportedA).toNat ∧
      (b - e.reportedB).toNat ≤ (e.sentB - e.reportedB).toNat
  | .trunkReset size => size = 3
  | .eventFrame _ size _ => size = 3
  | .dozeAck _ size => size = 3
  | .moduleWake _ size => size = 3
  | _ => False

end Sys2Proof.Machine
end

