-- ==== Sys2Proof/Laws/State.lean ====
section
/-! SUPPORT. What each named update of the state leaves and what it sets: one lemma for each field and each update, so that no later proof unfolds a record update. -/

namespace Sys2Proof.Machine

variable (s : State)

/-! ### setPort -/

@[simp] theorem State.setPort_porN (p : PortIdx) (b : PortBlock) : (s.setPort p b).porN = s.porN := rfl
@[simp] theorem State.setPort_strapId (p : PortIdx) (b : PortBlock) : (s.setPort p b).strapId = s.strapId := rfl
@[simp] theorem State.setPort_time (p : PortIdx) (b : PortBlock) : (s.setPort p b).time = s.time := rfl
@[simp] theorem State.setPort_apertureBase (p : PortIdx) (b : PortBlock) : (s.setPort p b).apertureBase = s.apertureBase := rfl
@[simp] theorem State.setPort_ticketLifetime (p : PortIdx) (b : PortBlock) : (s.setPort p b).ticketLifetime = s.ticketLifetime := rfl
@[simp] theorem State.setPort_headWaitLimit (p : PortIdx) (b : PortBlock) : (s.setPort p b).headWaitLimit = s.headWaitLimit := rfl
@[simp] theorem State.setPort_windows (p : PortIdx) (b : PortBlock) : (s.setPort p b).windows = s.windows := rfl
@[simp] theorem State.setPort_holdLists (p : PortIdx) (b : PortBlock) : (s.setPort p b).holdLists = s.holdLists := rfl
@[simp] theorem State.setPort_ingress (p : PortIdx) (b : PortBlock) : (s.setPort p b).ingress = s.ingress := rfl
@[simp] theorem State.setPort_decoder (p : PortIdx) (b : PortBlock) : (s.setPort p b).decoder = s.decoder := rfl
@[simp] theorem State.setPort_entries (p : PortIdx) (b : PortBlock) : (s.setPort p b).entries = s.entries := rfl
@[simp] theorem State.setPort_sentOrder (p : PortIdx) (b : PortBlock) : (s.setPort p b).sentOrder = s.sentOrder := rfl
@[simp] theorem State.setPort_trunkState (p : PortIdx) (b : PortBlock) : (s.setPort p b).trunkState = s.trunkState := rfl
@[simp] theorem State.setPort_trunk (p : PortIdx) (b : PortBlock) : (s.setPort p b).trunk = s.trunk := rfl
@[simp] theorem State.setPort_replyLane (p : PortIdx) (b : PortBlock) : (s.setPort p b).replyLane = s.replyLane := rfl
@[simp] theorem State.setPort_generalQueue (p : PortIdx) (b : PortBlock) : (s.setPort p b).generalQueue = s.generalQueue := rfl
@[simp] theorem State.setPort_laneLast (p : PortIdx) (b : PortBlock) : (s.setPort p b).laneLast = s.laneLast := rfl
@[simp] theorem State.setPort_arbLast (p : PortIdx) (b : PortBlock) : (s.setPort p b).arbLast = s.arbLast := rfl
@[simp] theorem State.setPort_lines (p : PortIdx) (b : PortBlock) : (s.setPort p b).lines = s.lines := rfl
@[simp] theorem State.setPort_lastLine (p : PortIdx) (b : PortBlock) : (s.setPort p b).lastLine = s.lastLine := rfl
@[simp] theorem State.setPort_faultLog (p : PortIdx) (b : PortBlock) : (s.setPort p b).faultLog = s.faultLog := rfl
@[simp] theorem State.setPort_dropped (p : PortIdx) (b : PortBlock) : (s.setPort p b).dropped = s.dropped := rfl
@[simp] theorem State.setPort_pending (p : PortIdx) (b : PortBlock) : (s.setPort p b).pending = s.pending := rfl

/-- The updated element is the one written. -/
@[simp] theorem State.port_setPort_self (p : PortIdx) (b : PortBlock) : (s.setPort p b).port p = b := by
  simp [State.port, State.setPort]

/-- Every other element is as it was. -/
theorem State.port_setPort_ne (p : PortIdx) (b : PortBlock) (k : PortIdx) (hk : p ≠ k) : (s.setPort p b).port k = s.port k := by
  have : p.val ≠ k.val := fun h => hk (Fin.ext h)
  simp [State.port, State.setPort, this]

/-- Any element after the update. -/
theorem State.port_setPort (p : PortIdx) (b : PortBlock) (k : PortIdx) :
    (s.setPort p b).port k = if p = k then b else s.port k := by
  by_cases h : p = k
  · subst h; simp
  · simp [h, State.port_setPort_ne]

/-- Writing an element that is already there changes nothing. -/
@[simp] theorem State.setPort_port (p : PortIdx) : s.setPort p (s.port p) = s := by
  simp [State.setPort, State.port]

/-- The later of two writes of one element stands. -/
@[simp] theorem State.setPort_setPort (p : PortIdx) (x y : PortBlock) :
    (s.setPort p x).setPort p y = s.setPort p y := by
  simp [State.setPort]

@[simp] theorem State.window_setPort (p : PortIdx) (b : PortBlock) (k : WindowIdx) : (s.setPort p b).window k = s.window k := rfl
@[simp] theorem State.holdList_setPort (p : PortIdx) (b : PortBlock) (k : WindowIdx) : (s.setPort p b).holdList k = s.holdList k := rfl
@[simp] theorem State.entry_setPort (p : PortIdx) (b : PortBlock) (k : EntryIdx) : (s.setPort p b).entry k = s.entry k := rfl
@[simp] theorem State.sentOf_setPort (p : PortIdx) (b : PortBlock) (k : PortIdx) : (s.setPort p b).sentOf k = s.sentOf k := rfl
@[simp] theorem State.line_setPort (p : PortIdx) (b : PortBlock) (k : LineIdx) : (s.setPort p b).line k = s.line k := rfl

/-! ### setWindow -/

@[simp] theorem State.setWindow_porN (w : WindowIdx) (r : WindowRecord) : (s.setWindow w r).porN = s.porN := rfl
@[simp] theorem State.setWindow_strapId (w : WindowIdx) (r : WindowRecord) : (s.setWindow w r).strapId = s.strapId := rfl
@[simp] theorem State.setWindow_time (w : WindowIdx) (r : WindowRecord) : (s.setWindow w r).time = s.time := rfl
@[simp] theorem State.setWindow_apertureBase (w : WindowIdx) (r : WindowRecord) : (s.setWindow w r).apertureBase = s.apertureBase := rfl
@[simp] theorem State.setWindow_ticketLifetime (w : WindowIdx) (r : WindowRecord) : (s.setWindow w r).ticketLifetime = s.ticketLifetime := rfl
@[simp] theorem State.setWindow_headWaitLimit (w : WindowIdx) (r : WindowRecord) : (s.setWindow w r).headWaitLimit = s.headWaitLimit := rfl
@[simp] theorem State.setWindow_holdLists (w : WindowIdx) (r : WindowRecord) : (s.setWindow w r).holdLists = s.holdLists := rfl
@[simp] theorem State.setWindow_ingress (w : WindowIdx) (r : WindowRecord) : (s.setWindow w r).ingress = s.ingress := rfl
@[simp] theorem State.setWindow_decoder (w : WindowIdx) (r : WindowRecord) : (s.setWindow w r).decoder = s.decoder := rfl
@[simp] theorem State.setWindow_entries (w : WindowIdx) (r : WindowRecord) : (s.setWindow w r).entries = s.entries := rfl
@[simp] theorem State.setWindow_sentOrder (w : WindowIdx) (r : WindowRecord) : (s.setWindow w r).sentOrder = s.sentOrder := rfl
@[simp] theorem State.setWindow_trunkState (w : WindowIdx) (r : WindowRecord) : (s.setWindow w r).trunkState = s.trunkState := rfl
@[simp] theorem State.setWindow_trunk (w : WindowIdx) (r : WindowRecord) : (s.setWindow w r).trunk = s.trunk := rfl
@[simp] theorem State.setWindow_ports (w : WindowIdx) (r : WindowRecord) : (s.setWindow w r).ports = s.ports := rfl
@[simp] theorem State.setWindow_replyLane (w : WindowIdx) (r : WindowRecord) : (s.setWindow w r).replyLane = s.replyLane := rfl
@[simp] theorem State.setWindow_generalQueue (w : WindowIdx) (r : WindowRecord) : (s.setWindow w r).generalQueue = s.generalQueue := rfl
@[simp] theorem State.setWindow_laneLast (w : WindowIdx) (r : WindowRecord) : (s.setWindow w r).laneLast = s.laneLast := rfl
@[simp] theorem State.setWindow_arbLast (w : WindowIdx) (r : WindowRecord) : (s.setWindow w r).arbLast = s.arbLast := rfl
@[simp] theorem State.setWindow_lines (w : WindowIdx) (r : WindowRecord) : (s.setWindow w r).lines = s.lines := rfl
@[simp] theorem State.setWindow_lastLine (w : WindowIdx) (r : WindowRecord) : (s.setWindow w r).lastLine = s.lastLine := rfl
@[simp] theorem State.setWindow_faultLog (w : WindowIdx) (r : WindowRecord) : (s.setWindow w r).faultLog = s.faultLog := rfl
@[simp] theorem State.setWindow_dropped (w : WindowIdx) (r : WindowRecord) : (s.setWindow w r).dropped = s.dropped := rfl
@[simp] theorem State.setWindow_pending (w : WindowIdx) (r : WindowRecord) : (s.setWindow w r).pending = s.pending := rfl

/-- The updated element is the one written. -/
@[simp] theorem State.window_setWindow_self (w : WindowIdx) (r : WindowRecord) : (s.setWindow w r).window w = r := by
  simp [State.window, State.setWindow]

/-- Every other element is as it was. -/
theorem State.window_setWindow_ne (w : WindowIdx) (r : WindowRecord) (k : WindowIdx) (hk : w ≠ k) : (s.setWindow w r).window k = s.window k := by
  have : w.val ≠ k.val := fun h => hk (Fin.ext h)
  simp [State.window, State.setWindow, this]

/-- Any element after the update. -/
theorem State.window_setWindow (w : WindowIdx) (r : WindowRecord) (k : WindowIdx) :
    (s.setWindow w r).window k = if w = k then r else s.window k := by
  by_cases h : w = k
  · subst h; simp
  · simp [h, State.window_setWindow_ne]

/-- Writing an element that is already there changes nothing. -/
@[simp] theorem State.setWindow_window (w : WindowIdx) : s.setWindow w (s.window w) = s := by
  simp [State.setWindow, State.window]

/-- The later of two writes of one element stands. -/
@[simp] theorem State.setWindow_setWindow (w : WindowIdx) (x y : WindowRecord) :
    (s.setWindow w x).setWindow w y = s.setWindow w y := by
  simp [State.setWindow]

@[simp] theorem State.port_setWindow (w : WindowIdx) (r : WindowRecord) (k : PortIdx) : (s.setWindow w r).port k = s.port k := rfl
@[simp] theorem State.holdList_setWindow (w : WindowIdx) (r : WindowRecord) (k : WindowIdx) : (s.setWindow w r).holdList k = s.holdList k := rfl
@[simp] theorem State.entry_setWindow (w : WindowIdx) (r : WindowRecord) (k : EntryIdx) : (s.setWindow w r).entry k = s.entry k := rfl
@[simp] theorem State.sentOf_setWindow (w : WindowIdx) (r : WindowRecord) (k : PortIdx) : (s.setWindow w r).sentOf k = s.sentOf k := rfl
@[simp] theorem State.line_setWindow (w : WindowIdx) (r : WindowRecord) (k : LineIdx) : (s.setWindow w r).line k = s.line k := rfl

/-! ### setHoldList -/

@[simp] theorem State.setHoldList_porN (w : WindowIdx) (h : List Held) : (s.setHoldList w h).porN = s.porN := rfl
@[simp] theorem State.setHoldList_strapId (w : WindowIdx) (h : List Held) : (s.setHoldList w h).strapId = s.strapId := rfl
@[simp] theorem State.setHoldList_time (w : WindowIdx) (h : List Held) : (s.setHoldList w h).time = s.time := rfl
@[simp] theorem State.setHoldList_apertureBase (w : WindowIdx) (h : List Held) : (s.setHoldList w h).apertureBase = s.apertureBase := rfl
@[simp] theorem State.setHoldList_ticketLifetime (w : WindowIdx) (h : List Held) : (s.setHoldList w h).ticketLifetime = s.ticketLifetime := rfl
@[simp] theorem State.setHoldList_headWaitLimit (w : WindowIdx) (h : List Held) : (s.setHoldList w h).headWaitLimit = s.headWaitLimit := rfl
@[simp] theorem State.setHoldList_windows (w : WindowIdx) (h : List Held) : (s.setHoldList w h).windows = s.windows := rfl
@[simp] theorem State.setHoldList_ingress (w : WindowIdx) (h : List Held) : (s.setHoldList w h).ingress = s.ingress := rfl
@[simp] theorem State.setHoldList_decoder (w : WindowIdx) (h : List Held) : (s.setHoldList w h).decoder = s.decoder := rfl
@[simp] theorem State.setHoldList_entries (w : WindowIdx) (h : List Held) : (s.setHoldList w h).entries = s.entries := rfl
@[simp] theorem State.setHoldList_sentOrder (w : WindowIdx) (h : List Held) : (s.setHoldList w h).sentOrder = s.sentOrder := rfl
@[simp] theorem State.setHoldList_trunkState (w : WindowIdx) (h : List Held) : (s.setHoldList w h).trunkState = s.trunkState := rfl
@[simp] theorem State.setHoldList_trunk (w : WindowIdx) (h : List Held) : (s.setHoldList w h).trunk = s.trunk := rfl
@[simp] theorem State.setHoldList_ports (w : WindowIdx) (h : List Held) : (s.setHoldList w h).ports = s.ports := rfl
@[simp] theorem State.setHoldList_replyLane (w : WindowIdx) (h : List Held) : (s.setHoldList w h).replyLane = s.replyLane := rfl
@[simp] theorem State.setHoldList_generalQueue (w : WindowIdx) (h : List Held) : (s.setHoldList w h).generalQueue = s.generalQueue := rfl
@[simp] theorem State.setHoldList_laneLast (w : WindowIdx) (h : List Held) : (s.setHoldList w h).laneLast = s.laneLast := rfl
@[simp] theorem State.setHoldList_arbLast (w : WindowIdx) (h : List Held) : (s.setHoldList w h).arbLast = s.arbLast := rfl
@[simp] theorem State.setHoldList_lines (w : WindowIdx) (h : List Held) : (s.setHoldList w h).lines = s.lines := rfl
@[simp] theorem State.setHoldList_lastLine (w : WindowIdx) (h : List Held) : (s.setHoldList w h).lastLine = s.lastLine := rfl
@[simp] theorem State.setHoldList_faultLog (w : WindowIdx) (h : List Held) : (s.setHoldList w h).faultLog = s.faultLog := rfl
@[simp] theorem State.setHoldList_dropped (w : WindowIdx) (h : List Held) : (s.setHoldList w h).dropped = s.dropped := rfl
@[simp] theorem State.setHoldList_pending (w : WindowIdx) (h : List Held) : (s.setHoldList w h).pending = s.pending := rfl

/-- The updated element is the one written. -/
@[simp] theorem State.holdList_setHoldList_self (w : WindowIdx) (h : List Held) : (s.setHoldList w h).holdList w = h := by
  simp [State.holdList, State.setHoldList]

/-- Every other element is as it was. -/
theorem State.holdList_setHoldList_ne (w : WindowIdx) (h : List Held) (k : WindowIdx) (hk : w ≠ k) : (s.setHoldList w h).holdList k = s.holdList k := by
  have : w.val ≠ k.val := fun h => hk (Fin.ext h)
  simp [State.holdList, State.setHoldList, this]

/-- Any element after the update. -/
theorem State.holdList_setHoldList (w : WindowIdx) (h : List Held) (k : WindowIdx) :
    (s.setHoldList w h).holdList k = if w = k then h else s.holdList k := by
  by_cases h : w = k
  · subst h; simp
  · simp [h, State.holdList_setHoldList_ne]

/-- Writing an element that is already there changes nothing. -/
@[simp] theorem State.setHoldList_holdList (w : WindowIdx) : s.setHoldList w (s.holdList w) = s := by
  simp [State.setHoldList, State.holdList]

/-- The later of two writes of one element stands. -/
@[simp] theorem State.setHoldList_setHoldList (w : WindowIdx) (x y : List Held) :
    (s.setHoldList w x).setHoldList w y = s.setHoldList w y := by
  simp [State.setHoldList]

@[simp] theorem State.port_setHoldList (w : WindowIdx) (h : List Held) (k : PortIdx) : (s.setHoldList w h).port k = s.port k := rfl
@[simp] theorem State.window_setHoldList (w : WindowIdx) (h : List Held) (k : WindowIdx) : (s.setHoldList w h).window k = s.window k := rfl
@[simp] theorem State.entry_setHoldList (w : WindowIdx) (h : List Held) (k : EntryIdx) : (s.setHoldList w h).entry k = s.entry k := rfl
@[simp] theorem State.sentOf_setHoldList (w : WindowIdx) (h : List Held) (k : PortIdx) : (s.setHoldList w h).sentOf k = s.sentOf k := rfl
@[simp] theorem State.line_setHoldList (w : WindowIdx) (h : List Held) (k : LineIdx) : (s.setHoldList w h).line k = s.line k := rfl

/-! ### setEntry -/

@[simp] theorem State.setEntry_porN (i : EntryIdx) (e : Entry) : (s.setEntry i e).porN = s.porN := rfl
@[simp] theorem State.setEntry_strapId (i : EntryIdx) (e : Entry) : (s.setEntry i e).strapId = s.strapId := rfl
@[simp] theorem State.setEntry_time (i : EntryIdx) (e : Entry) : (s.setEntry i e).time = s.time := rfl
@[simp] theorem State.setEntry_apertureBase (i : EntryIdx) (e : Entry) : (s.setEntry i e).apertureBase = s.apertureBase := rfl
@[simp] theorem State.setEntry_ticketLifetime (i : EntryIdx) (e : Entry) : (s.setEntry i e).ticketLifetime = s.ticketLifetime := rfl
@[simp] theorem State.setEntry_headWaitLimit (i : EntryIdx) (e : Entry) : (s.setEntry i e).headWaitLimit = s.headWaitLimit := rfl
@[simp] theorem State.setEntry_windows (i : EntryIdx) (e : Entry) : (s.setEntry i e).windows = s.windows := rfl
@[simp] theorem State.setEntry_holdLists (i : EntryIdx) (e : Entry) : (s.setEntry i e).holdLists = s.holdLists := rfl
@[simp] theorem State.setEntry_ingress (i : EntryIdx) (e : Entry) : (s.setEntry i e).ingress = s.ingress := rfl
@[simp] theorem State.setEntry_decoder (i : EntryIdx) (e : Entry) : (s.setEntry i e).decoder = s.decoder := rfl
@[simp] theorem State.setEntry_sentOrder (i : EntryIdx) (e : Entry) : (s.setEntry i e).sentOrder = s.sentOrder := rfl
@[simp] theorem State.setEntry_trunkState (i : EntryIdx) (e : Entry) : (s.setEntry i e).trunkState = s.trunkState := rfl
@[simp] theorem State.setEntry_trunk (i : EntryIdx) (e : Entry) : (s.setEntry i e).trunk = s.trunk := rfl
@[simp] theorem State.setEntry_ports (i : EntryIdx) (e : Entry) : (s.setEntry i e).ports = s.ports := rfl
@[simp] theorem State.setEntry_replyLane (i : EntryIdx) (e : Entry) : (s.setEntry i e).replyLane = s.replyLane := rfl
@[simp] theorem State.setEntry_generalQueue (i : EntryIdx) (e : Entry) : (s.setEntry i e).generalQueue = s.generalQueue := rfl
@[simp] theorem State.setEntry_laneLast (i : EntryIdx) (e : Entry) : (s.setEntry i e).laneLast = s.laneLast := rfl
@[simp] theorem State.setEntry_arbLast (i : EntryIdx) (e : Entry) : (s.setEntry i e).arbLast = s.arbLast := rfl
@[simp] theorem State.setEntry_lines (i : EntryIdx) (e : Entry) : (s.setEntry i e).lines = s.lines := rfl
@[simp] theorem State.setEntry_lastLine (i : EntryIdx) (e : Entry) : (s.setEntry i e).lastLine = s.lastLine := rfl
@[simp] theorem State.setEntry_faultLog (i : EntryIdx) (e : Entry) : (s.setEntry i e).faultLog = s.faultLog := rfl
@[simp] theorem State.setEntry_dropped (i : EntryIdx) (e : Entry) : (s.setEntry i e).dropped = s.dropped := rfl
@[simp] theorem State.setEntry_pending (i : EntryIdx) (e : Entry) : (s.setEntry i e).pending = s.pending := rfl

/-- The updated element is the one written. -/
@[simp] theorem State.entry_setEntry_self (i : EntryIdx) (e : Entry) : (s.setEntry i e).entry i = e := by
  simp [State.entry, State.setEntry]

/-- Every other element is as it was. -/
theorem State.entry_setEntry_ne (i : EntryIdx) (e : Entry) (k : EntryIdx) (hk : i ≠ k) : (s.setEntry i e).entry k = s.entry k := by
  have : i.val ≠ k.val := fun h => hk (Fin.ext h)
  simp [State.entry, State.setEntry, this]

/-- Any element after the update. -/
theorem State.entry_setEntry (i : EntryIdx) (e : Entry) (k : EntryIdx) :
    (s.setEntry i e).entry k = if i = k then e else s.entry k := by
  by_cases h : i = k
  · subst h; simp
  · simp [h, State.entry_setEntry_ne]

/-- Writing an element that is already there changes nothing. -/
@[simp] theorem State.setEntry_entry (i : EntryIdx) : s.setEntry i (s.entry i) = s := by
  simp [State.setEntry, State.entry]

/-- The later of two writes of one element stands. -/
@[simp] theorem State.setEntry_setEntry (i : EntryIdx) (x y : Entry) :
    (s.setEntry i x).setEntry i y = s.setEntry i y := by
  simp [State.setEntry]

@[simp] theorem State.port_setEntry (i : EntryIdx) (e : Entry) (k : PortIdx) : (s.setEntry i e).port k = s.port k := rfl
@[simp] theorem State.window_setEntry (i : EntryIdx) (e : Entry) (k : WindowIdx) : (s.setEntry i e).window k = s.window k := rfl
@[simp] theorem State.holdList_setEntry (i : EntryIdx) (e : Entry) (k : WindowIdx) : (s.setEntry i e).holdList k = s.holdList k := rfl
@[simp] theorem State.sentOf_setEntry (i : EntryIdx) (e : Entry) (k : PortIdx) : (s.setEntry i e).sentOf k = s.sentOf k := rfl
@[simp] theorem State.line_setEntry (i : EntryIdx) (e : Entry) (k : LineIdx) : (s.setEntry i e).line k = s.line k := rfl

/-! ### setSentOf -/

@[simp] theorem State.setSentOf_porN (p : PortIdx) (o : List EntryIdx) : (s.setSentOf p o).porN = s.porN := rfl
@[simp] theorem State.setSentOf_strapId (p : PortIdx) (o : List EntryIdx) : (s.setSentOf p o).strapId = s.strapId := rfl
@[simp] theorem State.setSentOf_time (p : PortIdx) (o : List EntryIdx) : (s.setSentOf p o).time = s.time := rfl
@[simp] theorem State.setSentOf_apertureBase (p : PortIdx) (o : List EntryIdx) : (s.setSentOf p o).apertureBase = s.apertureBase := rfl
@[simp] theorem State.setSentOf_ticketLifetime (p : PortIdx) (o : List EntryIdx) : (s.setSentOf p o).ticketLifetime = s.ticketLifetime := rfl
@[simp] theorem State.setSentOf_headWaitLimit (p : PortIdx) (o : List EntryIdx) : (s.setSentOf p o).headWaitLimit = s.headWaitLimit := rfl
@[simp] theorem State.setSentOf_windows (p : PortIdx) (o : List EntryIdx) : (s.setSentOf p o).windows = s.windows := rfl
@[simp] theorem State.setSentOf_holdLists (p : PortIdx) (o : List EntryIdx) : (s.setSentOf p o).holdLists = s.holdLists := rfl
@[simp] theorem State.setSentOf_ingress (p : PortIdx) (o : List EntryIdx) : (s.setSentOf p o).ingress = s.ingress := rfl
@[simp] theorem State.setSentOf_decoder (p : PortIdx) (o : List EntryIdx) : (s.setSentOf p o).decoder = s.decoder := rfl
@[simp] theorem State.setSentOf_entries (p : PortIdx) (o : List EntryIdx) : (s.setSentOf p o).entries = s.entries := rfl
@[simp] theorem State.setSentOf_trunkState (p : PortIdx) (o : List EntryIdx) : (s.setSentOf p o).trunkState = s.trunkState := rfl
@[simp] theorem State.setSentOf_trunk (p : PortIdx) (o : List EntryIdx) : (s.setSentOf p o).trunk = s.trunk := rfl
@[simp] theorem State.setSentOf_ports (p : PortIdx) (o : List EntryIdx) : (s.setSentOf p o).ports = s.ports := rfl
@[simp] theorem State.setSentOf_replyLane (p : PortIdx) (o : List EntryIdx) : (s.setSentOf p o).replyLane = s.replyLane := rfl
@[simp] theorem State.setSentOf_generalQueue (p : PortIdx) (o : List EntryIdx) : (s.setSentOf p o).generalQueue = s.generalQueue := rfl
@[simp] theorem State.setSentOf_laneLast (p : PortIdx) (o : List EntryIdx) : (s.setSentOf p o).laneLast = s.laneLast := rfl
@[simp] theorem State.setSentOf_arbLast (p : PortIdx) (o : List EntryIdx) : (s.setSentOf p o).arbLast = s.arbLast := rfl
@[simp] theorem State.setSentOf_lines (p : PortIdx) (o : List EntryIdx) : (s.setSentOf p o).lines = s.lines := rfl
@[simp] theorem State.setSentOf_lastLine (p : PortIdx) (o : List EntryIdx) : (s.setSentOf p o).lastLine = s.lastLine := rfl
@[simp] theorem State.setSentOf_faultLog (p : PortIdx) (o : List EntryIdx) : (s.setSentOf p o).faultLog = s.faultLog := rfl
@[simp] theorem State.setSentOf_dropped (p : PortIdx) (o : List EntryIdx) : (s.setSentOf p o).dropped = s.dropped := rfl
@[simp] theorem State.setSentOf_pending (p : PortIdx) (o : List EntryIdx) : (s.setSentOf p o).pending = s.pending := rfl

/-- The updated element is the one written. -/
@[simp] theorem State.sentOf_setSentOf_self (p : PortIdx) (o : List EntryIdx) : (s.setSentOf p o).sentOf p = o := by
  simp [State.sentOf, State.setSentOf]

/-- Every other element is as it was. -/
theorem State.sentOf_setSentOf_ne (p : PortIdx) (o : List EntryIdx) (k : PortIdx) (hk : p ≠ k) : (s.setSentOf p o).sentOf k = s.sentOf k := by
  have : p.val ≠ k.val := fun h => hk (Fin.ext h)
  simp [State.sentOf, State.setSentOf, this]

/-- Any element after the update. -/
theorem State.sentOf_setSentOf (p : PortIdx) (o : List EntryIdx) (k : PortIdx) :
    (s.setSentOf p o).sentOf k = if p = k then o else s.sentOf k := by
  by_cases h : p = k
  · subst h; simp
  · simp [h, State.sentOf_setSentOf_ne]

/-- Writing an element that is already there changes nothing. -/
@[simp] theorem State.setSentOf_sentOf (p : PortIdx) : s.setSentOf p (s.sentOf p) = s := by
  simp [State.setSentOf, State.sentOf]

/-- The later of two writes of one element stands. -/
@[simp] theorem State.setSentOf_setSentOf (p : PortIdx) (x y : List EntryIdx) :
    (s.setSentOf p x).setSentOf p y = s.setSentOf p y := by
  simp [State.setSentOf]

@[simp] theorem State.port_setSentOf (p : PortIdx) (o : List EntryIdx) (k : PortIdx) : (s.setSentOf p o).port k = s.port k := rfl
@[simp] theorem State.window_setSentOf (p : PortIdx) (o : List EntryIdx) (k : WindowIdx) : (s.setSentOf p o).window k = s.window k := rfl
@[simp] theorem State.holdList_setSentOf (p : PortIdx) (o : List EntryIdx) (k : WindowIdx) : (s.setSentOf p o).holdList k = s.holdList k := rfl
@[simp] theorem State.entry_setSentOf (p : PortIdx) (o : List EntryIdx) (k : EntryIdx) : (s.setSentOf p o).entry k = s.entry k := rfl
@[simp] theorem State.line_setSentOf (p : PortIdx) (o : List EntryIdx) (k : LineIdx) : (s.setSentOf p o).line k = s.line k := rfl

/-! ### setLine -/

@[simp] theorem State.setLine_porN (i : LineIdx) (l : EventLine) : (s.setLine i l).porN = s.porN := rfl
@[simp] theorem State.setLine_strapId (i : LineIdx) (l : EventLine) : (s.setLine i l).strapId = s.strapId := rfl
@[simp] theorem State.setLine_time (i : LineIdx) (l : EventLine) : (s.setLine i l).time = s.time := rfl
@[simp] theorem State.setLine_apertureBase (i : LineIdx) (l : EventLine) : (s.setLine i l).apertureBase = s.apertureBase := rfl
@[simp] theorem State.setLine_ticketLifetime (i : LineIdx) (l : EventLine) : (s.setLine i l).ticketLifetime = s.ticketLifetime := rfl
@[simp] theorem State.setLine_headWaitLimit (i : LineIdx) (l : EventLine) : (s.setLine i l).headWaitLimit = s.headWaitLimit := rfl
@[simp] theorem State.setLine_windows (i : LineIdx) (l : EventLine) : (s.setLine i l).windows = s.windows := rfl
@[simp] theorem State.setLine_holdLists (i : LineIdx) (l : EventLine) : (s.setLine i l).holdLists = s.holdLists := rfl
@[simp] theorem State.setLine_ingress (i : LineIdx) (l : EventLine) : (s.setLine i l).ingress = s.ingress := rfl
@[simp] theorem State.setLine_decoder (i : LineIdx) (l : EventLine) : (s.setLine i l).decoder = s.decoder := rfl
@[simp] theorem State.setLine_entries (i : LineIdx) (l : EventLine) : (s.setLine i l).entries = s.entries := rfl
@[simp] theorem State.setLine_sentOrder (i : LineIdx) (l : EventLine) : (s.setLine i l).sentOrder = s.sentOrder := rfl
@[simp] theorem State.setLine_trunkState (i : LineIdx) (l : EventLine) : (s.setLine i l).trunkState = s.trunkState := rfl
@[simp] theorem State.setLine_trunk (i : LineIdx) (l : EventLine) : (s.setLine i l).trunk = s.trunk := rfl
@[simp] theorem State.setLine_ports (i : LineIdx) (l : EventLine) : (s.setLine i l).ports = s.ports := rfl
@[simp] theorem State.setLine_replyLane (i : LineIdx) (l : EventLine) : (s.setLine i l).replyLane = s.replyLane := rfl
@[simp] theorem State.setLine_generalQueue (i : LineIdx) (l : EventLine) : (s.setLine i l).generalQueue = s.generalQueue := rfl
@[simp] theorem State.setLine_laneLast (i : LineIdx) (l : EventLine) : (s.setLine i l).laneLast = s.laneLast := rfl
@[simp] theorem State.setLine_arbLast (i : LineIdx) (l : EventLine) : (s.setLine i l).arbLast = s.arbLast := rfl
@[simp] theorem State.setLine_lastLine (i : LineIdx) (l : EventLine) : (s.setLine i l).lastLine = s.lastLine := rfl
@[simp] theorem State.setLine_faultLog (i : LineIdx) (l : EventLine) : (s.setLine i l).faultLog = s.faultLog := rfl
@[simp] theorem State.setLine_dropped (i : LineIdx) (l : EventLine) : (s.setLine i l).dropped = s.dropped := rfl
@[simp] theorem State.setLine_pending (i : LineIdx) (l : EventLine) : (s.setLine i l).pending = s.pending := rfl

/-- The updated element is the one written. -/
@[simp] theorem State.line_setLine_self (i : LineIdx) (l : EventLine) : (s.setLine i l).line i = l := by
  simp [State.line, State.setLine]

/-- Every other element is as it was. -/
theorem State.line_setLine_ne (i : LineIdx) (l : EventLine) (k : LineIdx) (hk : i ≠ k) : (s.setLine i l).line k = s.line k := by
  have : i.val ≠ k.val := fun h => hk (Fin.ext h)
  simp [State.line, State.setLine, this]

/-- Any element after the update. -/
theorem State.line_setLine (i : LineIdx) (l : EventLine) (k : LineIdx) :
    (s.setLine i l).line k = if i = k then l else s.line k := by
  by_cases h : i = k
  · subst h; simp
  · simp [h, State.line_setLine_ne]

/-- Writing an element that is already there changes nothing. -/
@[simp] theorem State.setLine_line (i : LineIdx) : s.setLine i (s.line i) = s := by
  simp [State.setLine, State.line]

/-- The later of two writes of one element stands. -/
@[simp] theorem State.setLine_setLine (i : LineIdx) (x y : EventLine) :
    (s.setLine i x).setLine i y = s.setLine i y := by
  simp [State.setLine]

@[simp] theorem State.port_setLine (i : LineIdx) (l : EventLine) (k : PortIdx) : (s.setLine i l).port k = s.port k := rfl
@[simp] theorem State.window_setLine (i : LineIdx) (l : EventLine) (k : WindowIdx) : (s.setLine i l).window k = s.window k := rfl
@[simp] theorem State.holdList_setLine (i : LineIdx) (l : EventLine) (k : WindowIdx) : (s.setLine i l).holdList k = s.holdList k := rfl
@[simp] theorem State.entry_setLine (i : LineIdx) (l : EventLine) (k : EntryIdx) : (s.setLine i l).entry k = s.entry k := rfl
@[simp] theorem State.sentOf_setLine (i : LineIdx) (l : EventLine) (k : PortIdx) : (s.setLine i l).sentOf k = s.sentOf k := rfl

/-! ### modPort, setLink, modLink -/

@[simp] theorem State.modPort_eq (p : PortIdx) (f : PortBlock → PortBlock) : s.modPort p f = s.setPort p (f (s.port p)) := rfl

@[simp] theorem State.modLink_eq (l : Link) (f : LinkEnd → LinkEnd) : s.modLink l f = s.setLink l (f (s.linkEnd l)) := rfl

@[simp] theorem State.linkEnd_trunk : s.linkEnd .trunk = s.trunk := rfl

@[simp] theorem State.linkEnd_branch (p : PortIdx) : s.linkEnd (.branch p) = (s.port p).link := rfl

@[simp] theorem State.setLink_trunk (e : LinkEnd) : s.setLink .trunk e = { s with trunk := e } := rfl

@[simp] theorem State.setLink_branch (p : PortIdx) (e : LinkEnd) :
    s.setLink (.branch p) e = s.setPort p { s.port p with link := e } := rfl

/-- The link end written is the one that stands. -/
@[simp] theorem State.linkEnd_setLink (l : Link) (e : LinkEnd) : (s.setLink l e).linkEnd l = e := by
  cases l <;> simp

/-- The later of two writes of one link end stands. -/
@[simp] theorem State.setLink_setLink (l : Link) (x y : LinkEnd) : (s.setLink l x).setLink l y = s.setLink l y := by
  cases l <;> simp

@[simp] theorem State.setLink_porN (l : Link) (e : LinkEnd) : (s.setLink l e).porN = s.porN := by cases l <;> rfl
@[simp] theorem State.setLink_strapId (l : Link) (e : LinkEnd) : (s.setLink l e).strapId = s.strapId := by cases l <;> rfl
@[simp] theorem State.setLink_time (l : Link) (e : LinkEnd) : (s.setLink l e).time = s.time := by cases l <;> rfl
@[simp] theorem State.setLink_apertureBase (l : Link) (e : LinkEnd) : (s.setLink l e).apertureBase = s.apertureBase := by cases l <;> rfl
@[simp] theorem State.setLink_ticketLifetime (l : Link) (e : LinkEnd) : (s.setLink l e).ticketLifetime = s.ticketLifetime := by cases l <;> rfl
@[simp] theorem State.setLink_headWaitLimit (l : Link) (e : LinkEnd) : (s.setLink l e).headWaitLimit = s.headWaitLimit := by cases l <;> rfl
@[simp] theorem State.setLink_windows (l : Link) (e : LinkEnd) : (s.setLink l e).windows = s.windows := by cases l <;> rfl
@[simp] theorem State.setLink_holdLists (l : Link) (e : LinkEnd) : (s.setLink l e).holdLists = s.holdLists := by cases l <;> rfl
@[simp] theorem State.setLink_ingress (l : Link) (e : LinkEnd) : (s.setLink l e).ingress = s.ingress := by cases l <;> rfl
@[simp] theorem State.setLink_decoder (l : Link) (e : LinkEnd) : (s.setLink l e).decoder = s.decoder := by cases l <;> rfl
@[simp] theorem State.setLink_entries (l : Link) (e : LinkEnd) : (s.setLink l e).entries = s.entries := by cases l <;> rfl
@[simp] theorem State.setLink_sentOrder (l : Link) (e : LinkEnd) : (s.setLink l e).sentOrder = s.sentOrder := by cases l <;> rfl
@[simp] theorem State.setLink_trunkState (l : Link) (e : LinkEnd) : (s.setLink l e).trunkState = s.trunkState := by cases l <;> rfl
@[simp] theorem State.setLink_replyLane (l : Link) (e : LinkEnd) : (s.setLink l e).replyLane = s.replyLane := by cases l <;> rfl
@[simp] theorem State.setLink_generalQueue (l : Link) (e : LinkEnd) : (s.setLink l e).generalQueue = s.generalQueue := by cases l <;> rfl
@[simp] theorem State.setLink_laneLast (l : Link) (e : LinkEnd) : (s.setLink l e).laneLast = s.laneLast := by cases l <;> rfl
@[simp] theorem State.setLink_arbLast (l : Link) (e : LinkEnd) : (s.setLink l e).arbLast = s.arbLast := by cases l <;> rfl
@[simp] theorem State.setLink_lines (l : Link) (e : LinkEnd) : (s.setLink l e).lines = s.lines := by cases l <;> rfl
@[simp] theorem State.setLink_lastLine (l : Link) (e : LinkEnd) : (s.setLink l e).lastLine = s.lastLine := by cases l <;> rfl
@[simp] theorem State.setLink_faultLog (l : Link) (e : LinkEnd) : (s.setLink l e).faultLog = s.faultLog := by cases l <;> rfl
@[simp] theorem State.setLink_dropped (l : Link) (e : LinkEnd) : (s.setLink l e).dropped = s.dropped := by cases l <;> rfl
@[simp] theorem State.setLink_pending (l : Link) (e : LinkEnd) : (s.setLink l e).pending = s.pending := by cases l <;> rfl

/-- A link end's update leaves a port's block but for its link. -/
theorem State.port_setLink_state (l : Link) (e : LinkEnd) (q : PortIdx) :
    ((s.setLink l e).port q).state = (s.port q).state := by
  cases l with
  | trunk => rfl
  | branch p => by_cases h : p = q <;> simp [State.port_setPort, h]

/-! ### withPending and writeTaken -/

@[simp] theorem State.withPending_pending (r : List Instr) : (s.withPending r).pending = r := rfl

@[simp] theorem State.writeTaken_porN : s.writeTaken.porN = s.porN := rfl
@[simp] theorem State.writeTaken_strapId : s.writeTaken.strapId = s.strapId := rfl
@[simp] theorem State.writeTaken_time : s.writeTaken.time = s.time := rfl
@[simp] theorem State.writeTaken_apertureBase : s.writeTaken.apertureBase = s.apertureBase := rfl
@[simp] theorem State.writeTaken_ticketLifetime : s.writeTaken.ticketLifetime = s.ticketLifetime := rfl
@[simp] theorem State.writeTaken_headWaitLimit : s.writeTaken.headWaitLimit = s.headWaitLimit := rfl
@[simp] theorem State.writeTaken_windows : s.writeTaken.windows = s.windows := rfl
@[simp] theorem State.writeTaken_holdLists : s.writeTaken.holdLists = s.holdLists := rfl
@[simp] theorem State.writeTaken_ingress : s.writeTaken.ingress = s.ingress := rfl
@[simp] theorem State.writeTaken_entries : s.writeTaken.entries = s.entries := rfl
@[simp] theorem State.writeTaken_sentOrder : s.writeTaken.sentOrder = s.sentOrder := rfl
@[simp] theorem State.writeTaken_trunkState : s.writeTaken.trunkState = s.trunkState := rfl
@[simp] theorem State.writeTaken_ports : s.writeTaken.ports = s.ports := rfl
@[simp] theorem State.writeTaken_replyLane : s.writeTaken.replyLane = s.replyLane := rfl
@[simp] theorem State.writeTaken_generalQueue : s.writeTaken.generalQueue = s.generalQueue := rfl
@[simp] theorem State.writeTaken_laneLast : s.writeTaken.laneLast = s.laneLast := rfl
@[simp] theorem State.writeTaken_arbLast : s.writeTaken.arbLast = s.arbLast := rfl
@[simp] theorem State.writeTaken_lines : s.writeTaken.lines = s.lines := rfl
@[simp] theorem State.writeTaken_lastLine : s.writeTaken.lastLine = s.lastLine := rfl
@[simp] theorem State.writeTaken_faultLog : s.writeTaken.faultLog = s.faultLog := rfl
@[simp] theorem State.writeTaken_dropped : s.writeTaken.dropped = s.dropped := rfl
@[simp] theorem State.writeTaken_pending : s.writeTaken.pending = s.pending := rfl
@[simp] theorem State.port_writeTaken (k : PortIdx) : s.writeTaken.port k = s.port k := rfl
@[simp] theorem State.window_writeTaken (k : WindowIdx) : s.writeTaken.window k = s.window k := rfl
@[simp] theorem State.holdList_writeTaken (k : WindowIdx) : s.writeTaken.holdList k = s.holdList k := rfl
@[simp] theorem State.entry_writeTaken (k : EntryIdx) : s.writeTaken.entry k = s.entry k := rfl
@[simp] theorem State.sentOf_writeTaken (k : PortIdx) : s.writeTaken.sentOf k = s.sentOf k := rfl
@[simp] theorem State.line_writeTaken (k : LineIdx) : s.writeTaken.line k = s.line k := rfl

/-! ### mapVec -/

/-- An element of a mapped vector. -/
@[simp] theorem mapVec_get {α β : Type} {n : Nat} (f : α → β) (v : Vector α n) (i : Nat) (h : i < n) :
    (mapVec f v)[i] = f v[i] := by
  simp [mapVec]

end Sys2Proof.Machine
end

