-- ==== Sys2Proof/Laws/Grants.lean ====
section
/-! SUPPORT. Everything that the admission arbiter, an arrival and the taking of a fault can do. -/

namespace Sys2Proof.Machine

/-! ### The admission arbiter -/

/-- Port idleness touches one port alone (R113). -/
theorem refreshIdle_frame (p : PortIdx) (s : State) : ∃ b, refreshIdle p s = s.setPort p b := by
  unfold refreshIdle enterDozeWait
  split
  · split
    · split
      · exact ⟨_, rfl⟩
      · split
        · exact ⟨_, rfl⟩
        · exact ⟨s.port p, by simp⟩
    · exact ⟨_, rfl⟩
  · exact ⟨s.port p, by simp⟩

/-- A grant to a branch changes the general queue, the last served claimant and its port (R142). -/
theorem grantBranch_frame (p : PortIdx) (s : State) : ∃ q a b,
    grantBranch p s = { s.setPort p b with generalQueue := q, arbLast := a } := by
  unfold grantBranch
  split
  · exact ⟨s.generalQueue, s.arbLast, s.port p, by simp⟩
  · obtain ⟨b, hb⟩ := refreshIdle_frame p
      ((placeGeneral (.write _) { s.modPort p (fun b => { b with buffer := _ }) with arbLast := .branch p }).consume
        (.branch p) .a)
    exact ⟨_, _, b, hb.trans (by simp [State.consume, placeGeneral, State.setPort, State.port]; exact ⟨rfl, rfl⟩)⟩

/-- A grant to the event unit changes the general queue, the last served claimant, the lines and the last served
line (R149, R150). -/
theorem grantEvent_frame (s : State) : ∃ q a ls l,
    grantEvent s = { s with generalQueue := q, arbLast := a, lines := ls, lastLine := l } := by
  unfold grantEvent
  split
  · exact ⟨_, _, _, _, rfl⟩
  · exact ⟨_, _, _, _, rfl⟩

theorem serveLoop_frame (n : Nat) (s : State) : ∃ q a ls l ps,
    serveLoop n s = { s with generalQueue := q, arbLast := a, lines := ls, lastLine := l, ports := ps } := by
  induction n generalizing s with
  | zero => exact ⟨_, _, _, _, _, rfl⟩
  | succ n ih =>
    simp only [serveLoop]
    split
    · split
      · rename_i p _
        obtain ⟨q, a, b, hb⟩ := grantBranch_frame p s
        obtain ⟨q', a', ls, l, ps, h⟩ := ih (grantBranch p s)
        exact ⟨q', a', ls, l, ps, by rw [h, hb]; rfl⟩
      · obtain ⟨q, a, ls, l, hb⟩ := grantEvent_frame s
        obtain ⟨q', a', ls', l', ps, h⟩ := ih (grantEvent s)
        exact ⟨q', a', ls', l', ps, by rw [h, hb]⟩
      · exact ⟨_, _, _, _, _, rfl⟩
      · exact ⟨_, _, _, _, _, rfl⟩
    · exact ⟨_, _, _, _, _, rfl⟩

/-- The admission arbiter changes the general queue, its last served claimant, the lines with the last served line,
and the ports it takes WRITEs from; nothing else (R141, R142). -/
theorem serveClaims_frame (s : State) : ∃ q a ls l ps,
    serveClaims s = { s with generalQueue := q, arbLast := a, lines := ls, lastLine := l, ports := ps } :=
  serveLoop_frame _ s

/-- Where no claimant waits for a free slot, the arbiter does nothing (R141). -/
theorem serveClaims_of_admitted {s : State} (h : s.admitted) : serveClaims s = s := by
  unfold serveClaims
  generalize Config.generalSlots - s.generalQueue.length = n
  cases n with
  | zero => rfl
  | succ n =>
    simp only [serveLoop]
    split
    · rename_i hg
      have hn : s.nextClaimant = none := by
        unfold State.nextClaimant
        rw [List.find?_eq_none]
        intro c _
        simp [h hg c]
      rw [hn]
    · rfl

/-! ### Arrivals and faults -/

/-- What an arrival changes is what the arbiter may change. -/
theorem arrival_frame (i : LineIdx) (s : State) : ∃ q a ls l ps,
    arrival i s = { s with generalQueue := q, arbLast := a, lines := ls, lastLine := l, ports := ps } := by
  obtain ⟨q, a, ls, l, ps, h⟩ := serveClaims_frame (s.setLine i (s.line i).arrive)
  exact ⟨q, a, ls, l, ps, by unfold arrival; rw [h]; rfl⟩

/-- The log takes a fault: at its tail while it holds fewer than 16 records, and else as one more dropped (R160). -/
theorem takeFault_eq (r : FaultRecord) (s : State) :
    takeFault r s = { s with
      faultLog := if s.faultLog.length < 16 then s.faultLog ++ [r] else s.faultLog
      dropped := if s.faultLog.length < 16 then s.dropped
        else if s.dropped = 0xFFFF then s.dropped else s.dropped + 1 } := by
  unfold takeFault Config.logRecords
  split <;> rfl

/-- A fault changes the log with its dropped count, and what an arrival may change (R146, R160). -/
theorem recordFault_frame (k : FaultKind) (src : FaultSource) (w : Option WindowIdx) (t : Option (BitVec 6))
    (a : Option HostAddr) (c : Option FaultCount) (s : State) : ∃ q arb ls l ps,
    recordFault k src w t a c s = { s with
      faultLog := if s.faultLog.length < 16 then s.faultLog ++ [⟨k, src, w, t, a, c, s.time⟩] else s.faultLog
      dropped := if s.faultLog.length < 16 then s.dropped
        else if s.dropped = 0xFFFF then s.dropped else s.dropped + 1
      generalQueue := q, arbLast := arb, lines := ls, lastLine := l, ports := ps } := by
  unfold recordFault
  rw [takeFault_eq]
  obtain ⟨q, arb, ls, l, ps, h⟩ := arrival_frame 32 { s with
    faultLog := if s.faultLog.length < 16 then s.faultLog ++ [⟨k, src, w, t, a, c, s.time⟩] else s.faultLog
    dropped := if s.faultLog.length < 16 then s.dropped
      else if s.dropped = 0xFFFF then s.dropped else s.dropped + 1 }
  exact ⟨q, arb, ls, l, ps, h⟩

/-! ### What the arbiter, an arrival and a fault leave -/

@[simp] theorem serveClaims_porN (s : State) : (serveClaims s).porN = s.porN := by
  obtain ⟨_, _, _, _, _, h⟩ := serveClaims_frame s; rw [h]
@[simp] theorem serveClaims_strapId (s : State) : (serveClaims s).strapId = s.strapId := by
  obtain ⟨_, _, _, _, _, h⟩ := serveClaims_frame s; rw [h]
@[simp] theorem serveClaims_time (s : State) : (serveClaims s).time = s.time := by
  obtain ⟨_, _, _, _, _, h⟩ := serveClaims_frame s; rw [h]
@[simp] theorem serveClaims_apertureBase (s : State) : (serveClaims s).apertureBase = s.apertureBase := by
  obtain ⟨_, _, _, _, _, h⟩ := serveClaims_frame s; rw [h]
@[simp] theorem serveClaims_ticketLifetime (s : State) : (serveClaims s).ticketLifetime = s.ticketLifetime := by
  obtain ⟨_, _, _, _, _, h⟩ := serveClaims_frame s; rw [h]
@[simp] theorem serveClaims_headWaitLimit (s : State) : (serveClaims s).headWaitLimit = s.headWaitLimit := by
  obtain ⟨_, _, _, _, _, h⟩ := serveClaims_frame s; rw [h]
@[simp] theorem serveClaims_windows (s : State) : (serveClaims s).windows = s.windows := by
  obtain ⟨_, _, _, _, _, h⟩ := serveClaims_frame s; rw [h]
@[simp] theorem serveClaims_holdLists (s : State) : (serveClaims s).holdLists = s.holdLists := by
  obtain ⟨_, _, _, _, _, h⟩ := serveClaims_frame s; rw [h]
@[simp] theorem serveClaims_ingress (s : State) : (serveClaims s).ingress = s.ingress := by
  obtain ⟨_, _, _, _, _, h⟩ := serveClaims_frame s; rw [h]
@[simp] theorem serveClaims_decoder (s : State) : (serveClaims s).decoder = s.decoder := by
  obtain ⟨_, _, _, _, _, h⟩ := serveClaims_frame s; rw [h]
@[simp] theorem serveClaims_entries (s : State) : (serveClaims s).entries = s.entries := by
  obtain ⟨_, _, _, _, _, h⟩ := serveClaims_frame s; rw [h]
@[simp] theorem serveClaims_sentOrder (s : State) : (serveClaims s).sentOrder = s.sentOrder := by
  obtain ⟨_, _, _, _, _, h⟩ := serveClaims_frame s; rw [h]
@[simp] theorem serveClaims_trunkState (s : State) : (serveClaims s).trunkState = s.trunkState := by
  obtain ⟨_, _, _, _, _, h⟩ := serveClaims_frame s; rw [h]
@[simp] theorem serveClaims_trunk (s : State) : (serveClaims s).trunk = s.trunk := by
  obtain ⟨_, _, _, _, _, h⟩ := serveClaims_frame s; rw [h]
@[simp] theorem serveClaims_replyLane (s : State) : (serveClaims s).replyLane = s.replyLane := by
  obtain ⟨_, _, _, _, _, h⟩ := serveClaims_frame s; rw [h]
@[simp] theorem serveClaims_laneLast (s : State) : (serveClaims s).laneLast = s.laneLast := by
  obtain ⟨_, _, _, _, _, h⟩ := serveClaims_frame s; rw [h]
@[simp] theorem serveClaims_faultLog (s : State) : (serveClaims s).faultLog = s.faultLog := by
  obtain ⟨_, _, _, _, _, h⟩ := serveClaims_frame s; rw [h]
@[simp] theorem serveClaims_dropped (s : State) : (serveClaims s).dropped = s.dropped := by
  obtain ⟨_, _, _, _, _, h⟩ := serveClaims_frame s; rw [h]
@[simp] theorem serveClaims_pending (s : State) : (serveClaims s).pending = s.pending := by
  obtain ⟨_, _, _, _, _, h⟩ := serveClaims_frame s; rw [h]
@[simp] theorem arrival_porN (i : LineIdx) (s : State) : (arrival i s).porN = s.porN := by
  obtain ⟨_, _, _, _, _, h⟩ := arrival_frame i s; rw [h]
@[simp] theorem arrival_strapId (i : LineIdx) (s : State) : (arrival i s).strapId = s.strapId := by
  obtain ⟨_, _, _, _, _, h⟩ := arrival_frame i s; rw [h]
@[simp] theorem arrival_time (i : LineIdx) (s : State) : (arrival i s).time = s.time := by
  obtain ⟨_, _, _, _, _, h⟩ := arrival_frame i s; rw [h]
@[simp] theorem arrival_apertureBase (i : LineIdx) (s : State) : (arrival i s).apertureBase = s.apertureBase := by
  obtain ⟨_, _, _, _, _, h⟩ := arrival_frame i s; rw [h]
@[simp] theorem arrival_ticketLifetime (i : LineIdx) (s : State) : (arrival i s).ticketLifetime = s.ticketLifetime := by
  obtain ⟨_, _, _, _, _, h⟩ := arrival_frame i s; rw [h]
@[simp] theorem arrival_headWaitLimit (i : LineIdx) (s : State) : (arrival i s).headWaitLimit = s.headWaitLimit := by
  obtain ⟨_, _, _, _, _, h⟩ := arrival_frame i s; rw [h]
@[simp] theorem arrival_windows (i : LineIdx) (s : State) : (arrival i s).windows = s.windows := by
  obtain ⟨_, _, _, _, _, h⟩ := arrival_frame i s; rw [h]
@[simp] theorem arrival_holdLists (i : LineIdx) (s : State) : (arrival i s).holdLists = s.holdLists := by
  obtain ⟨_, _, _, _, _, h⟩ := arrival_frame i s; rw [h]
@[simp] theorem arrival_ingress (i : LineIdx) (s : State) : (arrival i s).ingress = s.ingress := by
  obtain ⟨_, _, _, _, _, h⟩ := arrival_frame i s; rw [h]
@[simp] theorem arrival_decoder (i : LineIdx) (s : State) : (arrival i s).decoder = s.decoder := by
  obtain ⟨_, _, _, _, _, h⟩ := arrival_frame i s; rw [h]
@[simp] theorem arrival_entries (i : LineIdx) (s : State) : (arrival i s).entries = s.entries := by
  obtain ⟨_, _, _, _, _, h⟩ := arrival_frame i s; rw [h]
@[simp] theorem arrival_sentOrder (i : LineIdx) (s : State) : (arrival i s).sentOrder = s.sentOrder := by
  obtain ⟨_, _, _, _, _, h⟩ := arrival_frame i s; rw [h]
@[simp] theorem arrival_trunkState (i : LineIdx) (s : State) : (arrival i s).trunkState = s.trunkState := by
  obtain ⟨_, _, _, _, _, h⟩ := arrival_frame i s; rw [h]
@[simp] theorem arrival_trunk (i : LineIdx) (s : State) : (arrival i s).trunk = s.trunk := by
  obtain ⟨_, _, _, _, _, h⟩ := arrival_frame i s; rw [h]
@[simp] theorem arrival_replyLane (i : LineIdx) (s : State) : (arrival i s).replyLane = s.replyLane := by
  obtain ⟨_, _, _, _, _, h⟩ := arrival_frame i s; rw [h]
@[simp] theorem arrival_laneLast (i : LineIdx) (s : State) : (arrival i s).laneLast = s.laneLast := by
  obtain ⟨_, _, _, _, _, h⟩ := arrival_frame i s; rw [h]
@[simp] theorem arrival_faultLog (i : LineIdx) (s : State) : (arrival i s).faultLog = s.faultLog := by
  obtain ⟨_, _, _, _, _, h⟩ := arrival_frame i s; rw [h]
@[simp] theorem arrival_dropped (i : LineIdx) (s : State) : (arrival i s).dropped = s.dropped := by
  obtain ⟨_, _, _, _, _, h⟩ := arrival_frame i s; rw [h]
@[simp] theorem arrival_pending (i : LineIdx) (s : State) : (arrival i s).pending = s.pending := by
  obtain ⟨_, _, _, _, _, h⟩ := arrival_frame i s; rw [h]
@[simp] theorem recordFault_porN (k : FaultKind) (src : FaultSource) (w : Option WindowIdx) (t : Option (BitVec 6))
    (a : Option HostAddr) (c : Option FaultCount) (s : State) :
    (recordFault k src w t a c s).porN = s.porN := by
  obtain ⟨_, _, _, _, _, h⟩ := recordFault_frame k src w t a c s; rw [h]
@[simp] theorem recordFault_strapId (k : FaultKind) (src : FaultSource) (w : Option WindowIdx) (t : Option (BitVec 6))
    (a : Option HostAddr) (c : Option FaultCount) (s : State) :
    (recordFault k src w t a c s).strapId = s.strapId := by
  obtain ⟨_, _, _, _, _, h⟩ := recordFault_frame k src w t a c s; rw [h]
@[simp] theorem recordFault_time (k : FaultKind) (src : FaultSource) (w : Option WindowIdx) (t : Option (BitVec 6))
    (a : Option HostAddr) (c : Option FaultCount) (s : State) :
    (recordFault k src w t a c s).time = s.time := by
  obtain ⟨_, _, _, _, _, h⟩ := recordFault_frame k src w t a c s; rw [h]
@[simp] theorem recordFault_apertureBase (k : FaultKind) (src : FaultSource) (w : Option WindowIdx) (t : Option (BitVec 6))
    (a : Option HostAddr) (c : Option FaultCount) (s : State) :
    (recordFault k src w t a c s).apertureBase = s.apertureBase := by
  obtain ⟨_, _, _, _, _, h⟩ := recordFault_frame k src w t a c s; rw [h]
@[simp] theorem recordFault_ticketLifetime (k : FaultKind) (src : FaultSource) (w : Option WindowIdx) (t : Option (BitVec 6))
    (a : Option HostAddr) (c : Option FaultCount) (s : State) :
    (recordFault k src w t a c s).ticketLifetime = s.ticketLifetime := by
  obtain ⟨_, _, _, _, _, h⟩ := recordFault_frame k src w t a c s; rw [h]
@[simp] theorem recordFault_headWaitLimit (k : FaultKind) (src : FaultSource) (w : Option WindowIdx) (t : Option (BitVec 6))
    (a : Option HostAddr) (c : Option FaultCount) (s : State) :
    (recordFault k src w t a c s).headWaitLimit = s.headWaitLimit := by
  obtain ⟨_, _, _, _, _, h⟩ := recordFault_frame k src w t a c s; rw [h]
@[simp] theorem recordFault_windows (k : FaultKind) (src : FaultSource) (w : Option WindowIdx) (t : Option (BitVec 6))
    (a : Option HostAddr) (c : Option FaultCount) (s : State) :
    (recordFault k src w t a c s).windows = s.windows := by
  obtain ⟨_, _, _, _, _, h⟩ := recordFault_frame k src w t a c s; rw [h]
@[simp] theorem recordFault_holdLists (k : FaultKind) (src : FaultSource) (w : Option WindowIdx) (t : Option (BitVec 6))
    (a : Option HostAddr) (c : Option FaultCount) (s : State) :
    (recordFault k src w t a c s).holdLists = s.holdLists := by
  obtain ⟨_, _, _, _, _, h⟩ := recordFault_frame k src w t a c s; rw [h]
@[simp] theorem recordFault_ingress (k : FaultKind) (src : FaultSource) (w : Option WindowIdx) (t : Option (BitVec 6))
    (a : Option HostAddr) (c : Option FaultCount) (s : State) :
    (recordFault k src w t a c s).ingress = s.ingress := by
  obtain ⟨_, _, _, _, _, h⟩ := recordFault_frame k src w t a c s; rw [h]
@[simp] theorem recordFault_decoder (k : FaultKind) (src : FaultSource) (w : Option WindowIdx) (t : Option (BitVec 6))
    (a : Option HostAddr) (c : Option FaultCount) (s : State) :
    (recordFault k src w t a c s).decoder = s.decoder := by
  obtain ⟨_, _, _, _, _, h⟩ := recordFault_frame k src w t a c s; rw [h]
@[simp] theorem recordFault_entries (k : FaultKind) (src : FaultSource) (w : Option WindowIdx) (t : Option (BitVec 6))
    (a : Option HostAddr) (c : Option FaultCount) (s : State) :
    (recordFault k src w t a c s).entries = s.entries := by
  obtain ⟨_, _, _, _, _, h⟩ := recordFault_frame k src w t a c s; rw [h]
@[simp] theorem recordFault_sentOrder (k : FaultKind) (src : FaultSource) (w : Option WindowIdx) (t : Option (BitVec 6))
    (a : Option HostAddr) (c : Option FaultCount) (s : State) :
    (recordFault k src w t a c s).sentOrder = s.sentOrder := by
  obtain ⟨_, _, _, _, _, h⟩ := recordFault_frame k src w t a c s; rw [h]
@[simp] theorem recordFault_trunkState (k : FaultKind) (src : FaultSource) (w : Option WindowIdx) (t : Option (BitVec 6))
    (a : Option HostAddr) (c : Option FaultCount) (s : State) :
    (recordFault k src w t a c s).trunkState = s.trunkState := by
  obtain ⟨_, _, _, _, _, h⟩ := recordFault_frame k src w t a c s; rw [h]
@[simp] theorem recordFault_trunk (k : FaultKind) (src : FaultSource) (w : Option WindowIdx) (t : Option (BitVec 6))
    (a : Option HostAddr) (c : Option FaultCount) (s : State) :
    (recordFault k src w t a c s).trunk = s.trunk := by
  obtain ⟨_, _, _, _, _, h⟩ := recordFault_frame k src w t a c s; rw [h]
@[simp] theorem recordFault_replyLane (k : FaultKind) (src : FaultSource) (w : Option WindowIdx) (t : Option (BitVec 6))
    (a : Option HostAddr) (c : Option FaultCount) (s : State) :
    (recordFault k src w t a c s).replyLane = s.replyLane := by
  obtain ⟨_, _, _, _, _, h⟩ := recordFault_frame k src w t a c s; rw [h]
@[simp] theorem recordFault_laneLast (k : FaultKind) (src : FaultSource) (w : Option WindowIdx) (t : Option (BitVec 6))
    (a : Option HostAddr) (c : Option FaultCount) (s : State) :
    (recordFault k src w t a c s).laneLast = s.laneLast := by
  obtain ⟨_, _, _, _, _, h⟩ := recordFault_frame k src w t a c s; rw [h]
@[simp] theorem recordFault_pending (k : FaultKind) (src : FaultSource) (w : Option WindowIdx) (t : Option (BitVec 6))
    (a : Option HostAddr) (c : Option FaultCount) (s : State) :
    (recordFault k src w t a c s).pending = s.pending := by
  obtain ⟨_, _, _, _, _, h⟩ := recordFault_frame k src w t a c s; rw [h]
@[simp] theorem serveClaims_window (s : State) (x : WindowIdx) : (serveClaims s).window x = s.window x := by
  simp only [State.window, serveClaims_windows]
@[simp] theorem recordFault_window (k : FaultKind) (src : FaultSource) (w : Option WindowIdx) (t : Option (BitVec 6))
    (a : Option HostAddr) (c : Option FaultCount) (s : State) (x : WindowIdx) :
    (recordFault k src w t a c s).window x = s.window x := by
  simp only [State.window, recordFault_windows]
@[simp] theorem serveClaims_holdList (s : State) (x : WindowIdx) : (serveClaims s).holdList x = s.holdList x := by
  simp only [State.holdList, serveClaims_holdLists]
@[simp] theorem recordFault_holdList (k : FaultKind) (src : FaultSource) (w : Option WindowIdx) (t : Option (BitVec 6))
    (a : Option HostAddr) (c : Option FaultCount) (s : State) (x : WindowIdx) :
    (recordFault k src w t a c s).holdList x = s.holdList x := by
  simp only [State.holdList, recordFault_holdLists]
@[simp] theorem serveClaims_entry (s : State) (x : EntryIdx) : (serveClaims s).entry x = s.entry x := by
  simp only [State.entry, serveClaims_entries]
@[simp] theorem recordFault_entry (k : FaultKind) (src : FaultSource) (w : Option WindowIdx) (t : Option (BitVec 6))
    (a : Option HostAddr) (c : Option FaultCount) (s : State) (x : EntryIdx) :
    (recordFault k src w t a c s).entry x = s.entry x := by
  simp only [State.entry, recordFault_entries]
@[simp] theorem serveClaims_sentOf (s : State) (x : PortIdx) : (serveClaims s).sentOf x = s.sentOf x := by
  simp only [State.sentOf, serveClaims_sentOrder]
@[simp] theorem recordFault_sentOf (k : FaultKind) (src : FaultSource) (w : Option WindowIdx) (t : Option (BitVec 6))
    (a : Option HostAddr) (c : Option FaultCount) (s : State) (x : PortIdx) :
    (recordFault k src w t a c s).sentOf x = s.sentOf x := by
  simp only [State.sentOf, recordFault_sentOrder]

/-- The log after a fault (R160). -/
@[simp] theorem recordFault_faultLog (k : FaultKind) (src : FaultSource) (w : Option WindowIdx) (t : Option (BitVec 6))
    (a : Option HostAddr) (c : Option FaultCount) (s : State) :
    (recordFault k src w t a c s).faultLog =
      if s.faultLog.length < 16 then s.faultLog ++ [⟨k, src, w, t, a, c, s.time⟩] else s.faultLog := by
  obtain ⟨_, _, _, _, _, h⟩ := recordFault_frame k src w t a c s; rw [h]

/-- The dropped count after a fault (R160). -/
@[simp] theorem recordFault_dropped (k : FaultKind) (src : FaultSource) (w : Option WindowIdx) (t : Option (BitVec 6))
    (a : Option HostAddr) (c : Option FaultCount) (s : State) :
    (recordFault k src w t a c s).dropped =
      if s.faultLog.length < 16 then s.dropped
      else if s.dropped = 0xFFFF then s.dropped else s.dropped + 1 := by
  obtain ⟨_, _, _, _, _, h⟩ := recordFault_frame k src w t a c s; rw [h]

end Sys2Proof.Machine
end

