-- ==== Sys2Proof/Laws/Ports.lean ====
section
/-! SUPPORT. What the admission arbiter, an arrival and a fault can do to a branch port, and what they leave of it. -/

namespace Sys2Proof.Machine

/-- What grants of the general queue can do to a port: its upstream-write buffer loses WRITEs, which are consumed,
and a port in UP that becomes idle sets its idle deadline or enters DOZE_WAIT (R113, R114, R124). -/
structure PortGrant (b c : PortBlock) : Prop where
  rest : ∃ st bf idle dr dd wd ca cp, c =
    { b with state := st, buffer := bf, idle := idle, dozeRequested := dr, dozeReqDue := dd, wakeDue := wd,
             link := { b.link with consumedA := ca, creditPending := cp } }
  state : c.state = b.state ∨ b.state = .up ∧ c.state = .dozeWait
  still : b.buffer = [] → c = b
  notUp : b.state ≠ .up → c.idle = b.idle ∧ c.dozeRequested = b.dozeRequested ∧ c.dozeReqDue = b.dozeReqDue ∧
    c.wakeDue = b.wakeDue

theorem PortGrant.refl (b : PortBlock) : PortGrant b b :=
  ⟨⟨_, _, _, _, _, _, _, _, rfl⟩, .inl rfl, fun _ => rfl, fun _ => ⟨rfl, rfl, rfl, rfl⟩⟩

theorem PortGrant.trans {a b c : PortBlock} (h : PortGrant a b) (k : PortGrant b c) : PortGrant a c := by
  obtain ⟨⟨st, bf, i, dr, dd, wd, ca, cp, rfl⟩, hs, hb, hn⟩ := h
  obtain ⟨⟨st', bf', i', dr', dd', wd', ca', cp', rfl⟩, hs', hb', hn'⟩ := k
  refine ⟨⟨_, _, _, _, _, _, _, _, rfl⟩, ?_, ?_, ?_⟩
  · simp only at *
    rcases hs with hs | ⟨hs, hs2⟩ <;> rcases hs' with hs' | ⟨hs', hs2'⟩ <;> simp_all
  · intro ha
    have e := hb ha
    rw [e] at hb' ⊢
    exact hb' ha
  · intro ha
    simp only at *
    have h1 : st = a.state := by
      rcases hs with hs | ⟨hs, _⟩
      · exact hs
      · exact absurd hs ha
    have h2 := hn ha
    have h3 := hn' (by rw [h1]; exact ha)
    simp_all

/-- A grant leaves the port accepting or not. -/
theorem PortGrant.accepts {b c : PortBlock} (h : PortGrant b c) : c.state.accepts = b.state.accepts := by
  rcases h.state with h | ⟨h, h'⟩
  · rw [h]
  · rw [h, h']; rfl

/-- Port idleness, case by case: nothing, a new idle deadline in UP, or the entry to DOZE_WAIT from UP (R113, R114). -/
theorem refreshIdle_cases (p : PortIdx) (s : State) :
    refreshIdle p s = s ∨
    ((s.port p).state = .up ∧ ∃ i, refreshIdle p s = s.setPort p { s.port p with idle := i }) ∨
    ((s.port p).state = .up ∧ refreshIdle p s = s.setPort p
      { s.port p with state := .dozeWait, idle := none, dozeRequested := false, dozeReqDue := true, wakeDue := false }) := by
  unfold refreshIdle enterDozeWait
  split
  · rename_i hup
    split
    · split
      · exact .inr (.inr ⟨hup, rfl⟩)
      · split
        · exact .inr (.inl ⟨hup, _, rfl⟩)
        · exact .inl rfl
    · exact .inr (.inl ⟨hup, _, rfl⟩)
  · exact .inl rfl

/-- A grant to a branch as the ports see it (R124, R142). -/
theorem grantBranch_port (p : PortIdx) (s : State) (q : PortIdx) : PortGrant (s.port q) ((grantBranch p s).port q) := by
  unfold grantBranch
  split
  · exact PortGrant.refl _
  · rename_i w rest hw
    generalize hu : (placeGeneral (.write w) { s.modPort p (fun b => { b with buffer := rest }) with arbLast := .branch p }).consume
          (.branch p) .a = u
    have hport : ∀ q, p ≠ q → u.port q = s.port q := by
      intro q hq
      subst hu
      simp only [State.consume, State.modLink_eq, State.setLink_branch, State.port_setPort_ne _ _ _ _ hq]
      exact State.port_setPort_ne s p _ q hq
    have hself : ∃ ca cp, u.port p = { s.port p with
        buffer := rest, link := { (s.port p).link with consumedA := ca, creditPending := cp } } := by
      subst hu
      have e : (placeGeneral (.write w) { s.modPort p (fun b => { b with buffer := rest }) with arbLast := .branch p }).port p
          = { s.port p with buffer := rest } := State.port_setPort_self s p _
      simp only [State.consume, State.modLink_eq, State.setLink_branch, State.port_setPort_self, State.linkEnd_branch]
      rw [e]
      exact ⟨_, _, rfl⟩
    by_cases hq : p = q
    · subst hq
      obtain ⟨ca, cp, hs⟩ := hself
      have hne : (s.port p).buffer ≠ [] := by rw [hw]; simp
      rcases refreshIdle_cases p u with h | ⟨hup, i, h⟩ | ⟨hup, h⟩ <;> rw [h]
      · rw [hs]
        exact ⟨⟨_, _, _, _, _, _, _, _, rfl⟩, .inl rfl, fun h => absurd h hne, fun _ => ⟨rfl, rfl, rfl, rfl⟩⟩
      · rw [State.port_setPort_self, hs]
        rw [hs] at hup
        exact ⟨⟨_, _, _, _, _, _, _, _, rfl⟩, .inl rfl, fun h => absurd h hne, fun h => absurd hup h⟩
      · rw [State.port_setPort_self, hs]
        rw [hs] at hup
        exact ⟨⟨_, _, _, _, _, _, _, _, rfl⟩, .inr ⟨hup, rfl⟩, fun h => absurd h hne, fun h => absurd hup h⟩
    · obtain ⟨b, hb⟩ := refreshIdle_frame p u
      rw [hb, State.port_setPort_ne _ _ _ _ hq, hport q hq]
      exact PortGrant.refl _

theorem serveLoop_port (n : Nat) (s : State) (q : PortIdx) : PortGrant (s.port q) ((serveLoop n s).port q) := by
  induction n generalizing s with
  | zero => exact PortGrant.refl _
  | succ n ih =>
    simp only [serveLoop]
    split
    · split
      · rename_i p _
        exact (grantBranch_port p s q).trans (ih _)
      · have : (grantEvent s).port q = s.port q := by
          obtain ⟨_, _, _, _, h⟩ := grantEvent_frame s; rw [h]; rfl
        rw [← this]; exact ih _
      · exact PortGrant.refl _
      · exact PortGrant.refl _
    · exact PortGrant.refl _

/-- What the admission arbiter can do to a port (R124, R142). -/
theorem serveClaims_port (s : State) (q : PortIdx) : PortGrant (s.port q) ((serveClaims s).port q) := serveLoop_port _ s q

/-- What an arrival can do to a port. -/
theorem arrival_port (i : LineIdx) (s : State) (q : PortIdx) : PortGrant (s.port q) ((arrival i s).port q) :=
  serveClaims_port (s.setLine i (s.line i).arrive) q

/-- What a fault can do to a port. -/
theorem recordFault_port (k : FaultKind) (src : FaultSource) (w : Option WindowIdx) (t : Option (BitVec 6))
    (a : Option HostAddr) (c : Option FaultCount) (s : State) (q : PortIdx) :
    PortGrant (s.port q) ((recordFault k src w t a c s).port q) := by
  have h := arrival_port 32 (takeFault ⟨k, src, w, t, a, c, s.time⟩ s) q
  rw [takeFault_eq] at h
  unfold recordFault
  rw [takeFault_eq]
  exact h

end Sys2Proof.Machine
end

