-- ==== Sys2Proof/Laws/Release.lean ====
section
/-! SUPPORT. What the hold lists, the branch egress queues and the flush of a port can change, and what a live link is. -/

namespace Sys2Proof.Machine

/-! ### Links -/

/-- A link that hands frames on is in UP or DOZE_WAIT, with POR_N high and its signal present (R97, R102, R184, R190). -/
theorem linkLive_of_rxPhase_live {s : State} {l : Link} (h : s.rxPhase l = .live) :
    s.linkLive l = true ∧ s.porN = true ∧ (s.linkEnd l).signal = true := by
  unfold State.rxPhase at h
  split at h
  · rename_i hp
    simp only [Bool.and_eq_true] at hp
    refine ⟨?_, hp.1, hp.2⟩
    cases l with
    | trunk => cases ht : s.trunkState <;> simp_all [State.linkLive]
    | branch p => cases hb : (s.port p).state <;> simp_all [State.linkLive]
  · exact absurd h (by decide)

/-! ### Answers -/

/-- An entry that is live and not yet in REPLYING is answered; any other is left (R61, R68, R73, R75). -/
theorem toReplying_cases (i : EntryIdx) (st : Status) (data : List Byte) (s : State) :
    (toReplying i st data s = s ∧ ∀ v, (s.entry i).live = some v → v.stage.isReplying = true) ∨
    ∃ v, (s.entry i).live = some v ∧ v.stage.isReplying = false ∧ toReplying i st data s =
      { s.setEntry i ⟨(s.entry i).epoch, some { v with stage := .replying v.stage.route st data }⟩ with
        replyLane := s.replyLane ++ [i]
        sentOrder := mapVec (fun o => o.filter (· ≠ i)) s.sentOrder } := by
  unfold toReplying
  split
  · rename_i hn
    exact .inl ⟨rfl, fun v hv => by simp [hn] at hv⟩
  · rename_i v hv
    split
    · rename_i hr
      exact .inl ⟨rfl, fun u hu => by rw [hv] at hu; cases hu; exact hr⟩
    · rename_i hr
      exact .inr ⟨v, hv, by simpa using hr, rfl⟩

/-! ### What the branch side leaves -/

/-- Nothing differs but what the branch side of the router and the recording of faults may change: hold lists, ticket
entries with their orders, ports, event lines, the general queue with its arbiter, and the fault log. -/
structure BranchSide (s t : State) : Prop where
  porN : t.porN = s.porN
  strapId : t.strapId = s.strapId
  time : t.time = s.time
  apertureBase : t.apertureBase = s.apertureBase
  ticketLifetime : t.ticketLifetime = s.ticketLifetime
  headWaitLimit : t.headWaitLimit = s.headWaitLimit
  windows : t.windows = s.windows
  ingress : t.ingress = s.ingress
  decoder : t.decoder = s.decoder
  trunkState : t.trunkState = s.trunkState
  trunk : t.trunk = s.trunk
  laneLast : t.laneLast = s.laneLast
  pending : t.pending = s.pending

theorem BranchSide.refl (s : State) : BranchSide s s := by constructor <;> rfl

theorem BranchSide.trans {s t u : State} (h : BranchSide s t) (k : BranchSide t u) : BranchSide s u := by
  cases h; cases k; constructor <;> simp_all

theorem toReplying_branchSide (i : EntryIdx) (st : Status) (data : List Byte) (s : State) :
    BranchSide s (toReplying i st data s) := by
  obtain ⟨h, _⟩ | ⟨v, _, _, h⟩ := toReplying_cases i st data s
  · rw [h]; exact .refl s
  · rw [h]; constructor <;> rfl

theorem endHeld_branchSide (st : Status) (h : Held) (s : State) : BranchSide s (endHeld st h s) := by
  unfold endHeld
  split
  · exact toReplying_branchSide ..
  · exact .refl s

theorem recordFault_branchSide (k : FaultKind) (src : FaultSource) (w : Option WindowIdx) (t : Option (BitVec 6))
    (a : Option HostAddr) (c : Option FaultCount) (s : State) : BranchSide s (recordFault k src w t a c s) := by
  constructor <;> simp

theorem refreshIdle_branchSide (p : PortIdx) (s : State) : BranchSide s (refreshIdle p s) := by
  obtain ⟨b, h⟩ := refreshIdle_frame p s
  rw [h]; constructor <;> rfl

/-- A request placed in a branch egress queue changes its port alone (R30, R108, R119). -/
theorem placeEgress_frame (p : PortIdx) (q : Queued) (s : State) : ∃ b, placeEgress p q s = s.setPort p b := by
  unfold placeEgress
  simp only
  split
  · obtain ⟨b, h⟩ := refreshIdle_frame p (enterWaking true p (s.modPort p fun b => { b with queue := b.queue ++ [q] }))
    exact ⟨b, h.trans (by simp [enterWaking, State.modPort, State.modLink, State.setLink, State.setPort])⟩
  · obtain ⟨b, h⟩ := refreshIdle_frame p (s.modPort p fun b => { b with queue := b.queue ++ [q] })
    exact ⟨b, h.trans (by simp [State.modPort, State.setPort])⟩

theorem placeEgress_branchSide (p : PortIdx) (q : Queued) (s : State) : BranchSide s (placeEgress p q s) := by
  obtain ⟨b, h⟩ := placeEgress_frame p q s
  rw [h]; constructor <;> rfl

theorem failRun_branchSide (w : WindowIdx) (n : Nat) (s : State) : BranchSide s (failRun w n s) := by
  induction n generalizing s with
  | zero => exact .refl s
  | succ n ih =>
    simp only [failRun]
    split
    · split
      · exact .refl s
      · rename_i h rest _
        split
        · exact .refl s
        · exact (BranchSide.trans (t := s.setHoldList w rest) (by constructor <;> rfl)
            ((endHeld_branchSide ..).trans ((recordFault_branchSide ..).trans (ih _))))
    · exact .refl s

/-- The examination of a draining list touches the branch side alone (R27 to R29). -/
theorem examineHeads_branchSide (w : WindowIdx) (s : State) : BranchSide s (examineHeads w s) := failRun_branchSide ..

theorem examineAll_branchSide (s : State) : BranchSide s (examineAll s) := by
  unfold examineAll
  generalize List.finRange 24 = ws
  induction ws generalizing s with
  | nil => exact .refl s
  | cons w ws ih => exact (examineHeads_branchSide w s).trans (ih _)

/-- What a port's entry to DOWN or OFF examines is of the branch side alone (R35). -/
theorem examinePort_branchSide (p : PortIdx) (s : State) : BranchSide s (examinePort p s) := by
  unfold examinePort
  generalize List.finRange 24 = ws
  induction ws generalizing s with
  | nil => exact .refl s
  | cons w ws ih =>
    simp only [List.foldl_cons]
    split
    · exact (examineHeads_branchSide w s).trans (ih _)
    · exact ih s

theorem release_branchSide (w : WindowIdx) (s : State) : BranchSide s (release w s) := by
  unfold release
  split
  · exact .refl s
  · rename_i h rest _
    refine BranchSide.trans (t := s.setHoldList w rest) (by constructor <;> rfl) ?_
    cases h.body with
    | read i => exact BranchSide.trans (by constructor <;> rfl) (placeEgress_branchSide ..)
    | write d => exact placeEgress_branchSide ..

theorem grantLoop_branchSide (p : PortIdx) (n : Nat) (s : State) : BranchSide s (grantLoop p n s) := by
  induction n generalizing s with
  | zero => exact .refl s
  | succ n ih =>
    simp only [grantLoop]
    split
    · split
      · exact (release_branchSide ..).trans ((examineHeads_branchSide ..).trans (ih _))
      · exact .refl s
    · exact .refl s

/-- The grants of a port's slots to draining windows touch the branch side alone (R34). -/
theorem grantWindows_branchSide (p : PortIdx) (s : State) : BranchSide s (grantWindows p s) := grantLoop_branchSide ..

theorem flush_branchSide (st : PortState) (p : PortIdx) (s : State) : BranchSide s (flush st p s) := by
  have answers : ∀ (l : List EntryIdx) (u : State),
      BranchSide u (l.foldl (fun u i => toReplying i .unclaimed [] u) u) := by
    intro l
    induction l with
    | nil => exact fun u => .refl u
    | cons i l ih => exact fun u => (toReplying_branchSide i .unclaimed [] u).trans (ih _)
  unfold flush
  simp only
  refine (answers (s.flushAnswers p) s).trans ?_
  split
  · constructor <;> rfl
  · exact BranchSide.trans (by constructor <;> rfl) (recordFault_branchSide ..)

/-- A port's entry to DOWN or OFF touches the branch side alone (R35, R105, R111, R112). -/
theorem portDown_branchSide (st : PortState) (cause : Option FaultKind) (p : PortIdx) (s : State) :
    BranchSide s (portDown st cause p s) := by
  unfold portDown
  cases cause with
  | none => exact (flush_branchSide ..).trans (examinePort_branchSide p _)
  | some k => exact (recordFault_branchSide ..).trans ((flush_branchSide ..).trans (examinePort_branchSide p _))

/-! ### What trunk loss and the tick leave -/

theorem grantAll_branchSide (s : State) : BranchSide s (grantAll s) := by
  unfold grantAll
  generalize List.finRange 4 = ps
  induction ps generalizing s with
  | nil => exact .refl s
  | cons p ps ih => exact (grantWindows_branchSide p s).trans (ih _)

/-- Steps 1 to 4 of trunk loss leave the trunk in DOWN with its link silent, and no frame waiting (R130). -/
theorem loseRequests_branchSide (s : State) :
    BranchSide { s with trunkState := .down, trunk := s.trunk.silence, ingress := [], decoder := .clear }
      (loseRequests s) :=
  BranchSide.trans (by constructor <;> rfl) (grantAll_branchSide _)

/-- Steps 5 to 8 of trunk loss set the trunk's retry deadline; the rest is the branch side's (R130). -/
theorem recordLoss_branchSide (cause : FaultKind) (n : Nat) (s : State) :
    BranchSide { s with trunk := { s.trunk with retry := some (s.time + Config.retryInterval) } }
      (recordLoss cause n s) := by
  constructor <;> simp [recordLoss]

/-- Trunk loss sets the trunk, its link and its ingress queue; all else that it changes is of the branch side (R79,
R130). -/
theorem trunkLoss_branchSide (cause : FaultKind) (s : State) :
    BranchSide { s with
      trunkState := .down, trunk := { s.trunk.silence with retry := some (s.time + Config.retryInterval) }
      ingress := [], decoder := .clear } (trunkLoss cause s) := by
  have idle : ∀ (ps : List PortIdx) (u : State), BranchSide u (ps.foldl (fun s p => refreshIdle p s) u) := by
    intro ps
    induction ps with
    | nil => exact fun u => .refl u
    | cons p ps ih => exact fun u => (refreshIdle_branchSide p u).trans (ih _)
  refine BranchSide.trans ?_ (idle _ _)
  have h := loseRequests_branchSide s
  refine BranchSide.trans ?_ (recordLoss_branchSide cause s.liveCount (loseRequests s))
  cases h; constructor <;> simp_all

/-- A head fails its examination exactly where it stands in a draining window and has a failure (R27). -/
theorem headFails_eq_true {s : State} {w : WindowIdx} :
    s.headFails w = true ↔ s.windowState w = .drain ∧
      ∃ h rest, s.holdList w = h :: rest ∧ (s.releaseFailure w h).isSome = true := by
  unfold State.headFails
  cases hl : s.holdList w <;> simp

/-- The tick changes router time alone where no draining head fails (R176). -/
theorem tick_eq {s : State} (h : ∀ w, s.headFails w = false) : tick s = { s with time := s.time + 1 } := by
  simp [tick, h]

/-- Where one fails, the heads are examined and the slots granted, all of it on the branch side, and then the happening
ends as any other does (log 16). -/
theorem tick_uncovered {s : State} {w : WindowIdx} (h : s.headFails w = true) :
    ∃ u, BranchSide { s with time := s.time + 1 } u ∧ tick s = settle u := by
  have h' : (List.finRange 24).any s.headFails = true := List.any_eq_true.mpr ⟨w, List.mem_finRange w, h⟩
  exact ⟨_, (examineAll_branchSide _).trans (grantAll_branchSide _), by simp only [tick, h', if_true]⟩

end Sys2Proof.Machine
end

