-- ==== Sys2Proof/Laws/Decoder.lean ====
section
/-! SUPPORT. What the decoder's run of frames, and the management unit inside it, leave. -/

namespace Sys2Proof.Machine

/-- The items that no taking of a frame from the trunk ingress queue changes: the reset pin and the strap ID, router
time, the trunk link's state, and the queue of commands. -/
structure TakeSide (s t : State) : Prop where
  porN : t.porN = s.porN
  strapId : t.strapId = s.strapId
  time : t.time = s.time
  trunkState : t.trunkState = s.trunkState
  pending : t.pending = s.pending

theorem TakeSide.refl (s : State) : TakeSide s s := by constructor <;> rfl

theorem TakeSide.trans {s t u : State} (h : TakeSide s t) (k : TakeSide t u) : TakeSide s u := by
  cases h; cases k; constructor <;> simp_all

theorem BranchSide.takeSide {s t : State} (h : BranchSide s t) : TakeSide s t :=
  ⟨h.porN, h.strapId, h.time, h.trunkState, h.pending⟩

theorem serveClaims_takeSide (s : State) : TakeSide s (serveClaims s) := by constructor <;> simp

theorem recordFault_takeSide (k : FaultKind) (src : FaultSource) (w : Option WindowIdx) (t : Option (BitVec 6))
    (a : Option HostAddr) (c : Option FaultCount) (s : State) : TakeSide s (recordFault k src w t a c s) :=
  (recordFault_branchSide ..).takeSide

theorem modPort_takeSide (p : PortIdx) (f : PortBlock → PortBlock) (s : State) : TakeSide s (s.modPort p f) := by
  constructor <;> rfl

theorem modLink_takeSide (l : Link) (f : LinkEnd → LinkEnd) (s : State) : TakeSide s (s.modLink l f) := by
  cases l <;> constructor <;> rfl

theorem withField_takeSide {v : Option Nat} {f : Nat → State → State} (h : ∀ n s, TakeSide s (f n s)) (s : State) :
    TakeSide s (withField v f s) := by
  unfold withField
  split
  · exact h _ s
  · exact .refl s

theorem dueSync_takeSide (l : Link) (s : State) : TakeSide s (dueSync l s) := by
  unfold dueSync sendSync
  split <;> exact modLink_takeSide ..

/-- A branch link's entry to TRAINING leaves them (R87). -/
theorem startTraining_takeSide (p : PortIdx) (s : State) : TakeSide s (startTraining (.branch p) s) := by
  unfold startTraining
  exact TakeSide.trans (t := setTraining (.branch p) s) (by constructor <;> rfl)
    ((modLink_takeSide ..).trans (dueSync_takeSide ..))

theorem setLine_takeSide (i : LineIdx) (l : EventLine) (s : State) : TakeSide s (s.setLine i l) := by
  constructor <;> rfl

/-! ### The management unit -/

theorem endAllHeld_takeSide (w : WindowIdx) (st : Status) (k : FaultKind) (s : State) :
    TakeSide s (endAllHeld w st k s) := by
  have ended : ∀ (l : List Held) (u : State), TakeSide u (l.foldl (fun u h => endHeld st h u) u) := by
    intro l
    induction l with
    | nil => exact fun u => .refl u
    | cons h l ih => exact fun u => (endHeld_branchSide st h u).takeSide.trans (ih _)
  unfold endAllHeld
  simp only
  refine TakeSide.trans (t := s.setHoldList w []) (by constructor <;> rfl) ((ended (s.holdList w) _).trans ?_)
  split
  · exact .refl _
  · exact recordFault_takeSide ..

theorem writeWindow_takeSide (w : WindowIdx) (data : List Byte) (a : HostAddr) (s : State) :
    TakeSide s (writeWindow w data a s) := by
  unfold writeWindow
  split
  · rename_i r _
    unfold applyWindow
    refine TakeSide.trans (t := s.setWindow w r) (by constructor <;> rfl) ?_
    simp only
    split
    · split
      · exact ((examineHeads_branchSide ..).trans (grantWindows_branchSide ..)).takeSide
      · exact .refl _
      · exact endAllHeld_takeSide ..
    · exact endAllHeld_takeSide ..
  · exact recordFault_takeSide ..

theorem writeControl_takeSide (off : Nat) (data : List Byte) (s : State) : TakeSide s (writeControl off data s) := by
  unfold writeControl
  exact ((withField_takeSide (fun _ _ => by constructor <;> rfl) s).trans (withField_takeSide
    (fun _ _ => by constructor <;> rfl) _)).trans ((withField_takeSide (fun _ _ => by constructor <;> rfl) _).trans
    (withField_takeSide (fun _ _ => by split <;> constructor <;> rfl) _))

theorem clearCounters_takeSide (off : Nat) (data : List Byte) (base : Nat) (l : Link) (s : State) :
    TakeSide s (clearCounters off data base l s) := by
  unfold clearCounters clearCounter
  have h := fun (f : LinkEnd → LinkEnd) (_ : Nat) (s : State) => modLink_takeSide l f s
  exact ((withField_takeSide (h _) s).trans (withField_takeSide (h _) _)).trans
    ((withField_takeSide (h _) _).trans (withField_takeSide (h _) _))

theorem portCommand_takeSide (p : PortIdx) (code : Nat) (s : State) : TakeSide s (portCommand p code s) := by
  have result : ∀ r u, TakeSide u (setResult p r u) := fun r u => modPort_takeSide ..
  unfold portCommand commandDoze commandWake commandReset
  split
  · split
    · simp only
      split
      · exact (result _ _).trans (by unfold enterDozeWait; exact modPort_takeSide ..)
      · exact (result _ _).trans (modPort_takeSide ..)
    · exact result _ _
  · split
    · split
      · exact (result _ _).trans (by unfold enterWaking; exact (modPort_takeSide ..).trans (modLink_takeSide ..))
      · exact result _ _
    · split
      · split
        · exact result _ _
        · exact (result .accepted s).trans (((portDown_branchSide ..).takeSide.trans (startTraining_takeSide p _)).trans
            (grantWindows_branchSide ..).takeSide)
      · exact .refl s

theorem writePort_takeSide (p : PortIdx) (off : Nat) (data : List Byte) (s : State) :
    TakeSide s (writePort p off data s) := by
  unfold writePort
  refine ((withField_takeSide (fun v u => ?_) s).trans (withField_takeSide (fun _ _ => modPort_takeSide ..) _)).trans
    ((withField_takeSide (fun v u => ?_) _).trans ((withField_takeSide (fun _ _ => modPort_takeSide ..) _).trans
      ((withField_takeSide (fun _ _ => modPort_takeSide ..) _).trans ((clearCounters_takeSide ..).trans
        ((withField_takeSide (fun _ _ => modPort_takeSide ..) _).trans
          (withField_takeSide (fun _ _ => portCommand_takeSide ..) _))))))
  · unfold writeEnable
    split
    · split
      · exact (startTraining_takeSide p u).trans (grantWindows_branchSide ..).takeSide
      · exact .refl u
    · split
      · exact .refl u
      · exact (portDown_branchSide ..).takeSide
  · unfold writeInterval
    simp only
    split
    · exact (modPort_takeSide ..).trans (modPort_takeSide ..)
    · exact modPort_takeSide ..

theorem writeLine_takeSide (i : LineIdx) (off : Nat) (data : List Byte) (s : State) :
    TakeSide s (writeLine i off data s) := by
  unfold writeLine
  exact ((withField_takeSide (fun _ _ => setLine_takeSide ..) s).trans
    (withField_takeSide (fun _ _ => setLine_takeSide ..) _)).trans ((serveClaims_takeSide _).trans
      ((withField_takeSide (fun _ _ => setLine_takeSide ..) _).trans (serveClaims_takeSide _)))

/-- What the management unit does with a WRITE leaves these items (R172 to R174). -/
theorem manageWrite_takeSide (a : HostAddr) (data : List Byte) (s : State) : TakeSide s (manageWrite a data s) := by
  unfold manageWrite
  simp only
  split
  · split
    · rename_i r at' _ _
      cases r with
      | window w => exact writeWindow_takeSide ..
      | control => exact writeControl_takeSide ..
      | port p => exact writePort_takeSide ..
      | trunk => exact clearCounters_takeSide ..
      | line i => exact writeLine_takeSide ..
      | logControl =>
        unfold applyRecord writeLogControl popLog
        exact (withField_takeSide (fun _ _ => by constructor <;> rfl) s).trans
          (withField_takeSide (fun _ _ => by split <;> constructor <;> rfl) _)
      | identity => exact .refl s
      | routerTime => exact .refl s
      | view i => exact .refl s
      | logHead => exact .refl s
    · exact recordFault_takeSide ..
  · exact recordFault_takeSide ..

theorem manageRead_takeSide (t : BitVec 6) (a : HostAddr) (n : Nat) (s : State) : TakeSide s (manageRead t a n s) := by
  unfold manageRead
  simp only
  split
  · constructor <;> rfl
  · exact TakeSide.trans (by constructor <;> rfl) (recordFault_takeSide ..)

/-! ### The run -/

theorem allocateFree_takeSide {f : HostFrame} {t : BitVec 6} {w : Option WindowIdx} {st : Stage}
    {next : EntryIdx → State → State} (h : ∀ i u, TakeSide u (next i u)) (s : State) :
    TakeSide s (allocateFree f t w st next s) := by
  unfold allocateFree
  split
  · exact TakeSide.trans (by constructor <;> rfl) (h _ _)
  · exact .refl s

theorem takeFate_takeSide (f : HostFrame) (d : Fate) (s : State) : TakeSide s (takeFate f d s) := by
  cases d with
  | reuse => exact recordFault_takeSide ..
  | management =>
    simp only [takeFate]
    split
    · exact manageRead_takeSide ..
    · exact manageWrite_takeSide ..
  | failed k st w =>
    simp only [takeFate, takeFailed]
    refine TakeSide.trans ?_ (recordFault_takeSide ..)
    split
    · exact allocateFree_takeSide (fun _ _ => by constructor <;> rfl) s
    · exact .refl s
  | toHold w =>
    simp only [takeFate, takeHold]
    split
    · exact allocateFree_takeSide (fun _ _ => by constructor <;> rfl) s
    · constructor <;> rfl
  | toQueue w =>
    simp only [takeFate, takeQueue]
    split
    · exact allocateFree_takeSide (fun _ _ => (placeEgress_branchSide ..).takeSide) s
    · exact (placeEgress_branchSide ..).takeSide

theorem takeFrame_takeSide (f : HostFrame) (d : Fate) (s : State) : TakeSide s (takeFrame f d s) := by
  unfold takeFrame popHead State.consume
  exact (TakeSide.trans (by constructor <;> rfl) (modLink_takeSide .trunk _ _)).trans (takeFate_takeSide ..)

theorem decodeLoop_takeSide (n : Nat) (fresh : Bool) (s : State) : TakeSide s (decodeLoop n fresh s) := by
  have claim : ∀ f d u, TakeSide u (claimGeneral f d u) := by
    intro f d u
    unfold claimGeneral
    split
    · exact TakeSide.trans (by constructor <;> rfl) (serveClaims_takeSide _)
    · exact .refl u
  induction n generalizing fresh s with
  | zero => exact serveClaims_takeSide s
  | succ n ih =>
    simp only [decodeLoop]
    split
    · exact serveClaims_takeSide s
    · rename_i f _ _
      refine (claim f (s.fate f) s).trans ?_
      split
      · exact (takeFrame_takeSide ..).trans (ih ..)
      · exact TakeSide.trans (by constructor <;> rfl) (serveClaims_takeSide _)

/-- The end of a happening leaves the reset pin, the strap ID, router time, the trunk link's state and the queue of
commands (R53, R141). -/
theorem settle_takeSide (s : State) : TakeSide s (settle s) := (serveClaims_takeSide s).trans (decodeLoop_takeSide ..)

end Sys2Proof.Machine
end

