-- ==== Sys2Proof/Laws/Settled.lean ====
section
/-! SUPPORT. The admission arbiter stops where no further grant can be made, so that a second run of it does nothing, and what the end of a happening does where no frame waits. -/

namespace Sys2Proof.Machine

/-- No grant can be made: no slot is free, no claimant is present, or the next turn is the decoder's (R141). -/
def State.stuck (s : State) : Prop :=
  s.generalFree = true → s.nextClaimant = none ∨ s.nextClaimant = some .decoder

/-- A grant to a branch that claims adds one frame to the general queue (R142). -/
theorem grantBranch_length {p : PortIdx} {s : State} (h : s.claims (.branch p) = true) :
    (grantBranch p s).generalQueue.length = s.generalQueue.length + 1 := by
  unfold grantBranch
  split
  · rename_i hb
    simp [State.claims, hb] at h
  · obtain ⟨b, hb⟩ := refreshIdle_frame p
      ((placeGeneral (.write _) { s.modPort p (fun b => { b with buffer := _ }) with arbLast := .branch p }).consume
        (.branch p) .a)
    rw [hb]
    simp [State.consume, placeGeneral]

/-- A grant to the event unit that claims adds one frame to the general queue (R150). -/
theorem grantEvent_length {s : State} (h : s.claims .eventUnit = true) :
    (grantEvent s).generalQueue.length = s.generalQueue.length + 1 := by
  unfold grantEvent
  split
  · rename_i hb
    simp [State.claims, hb] at h
  · simp [placeGeneral]

theorem nextClaimant_claims {s : State} {c : Claimant} (h : s.nextClaimant = some c) : s.claims c = true := by
  unfold State.nextClaimant at h
  exact List.find?_some h

theorem serveLoop_stuck (n : Nat) (s : State) (h : 8 ≤ s.generalQueue.length + n) : (serveLoop n s).stuck := by
  induction n generalizing s with
  | zero =>
    intro hg
    have h8 : s.generalQueue.length < 8 := by
      simp only [serveLoop, State.generalFree, Bool.and_eq_true] at hg
      exact of_decide_eq_true hg.2
    omega
  | succ n ih =>
    simp only [serveLoop]
    split
    · split
      · rename_i p hn
        exact ih _ (by rw [grantBranch_length (nextClaimant_claims hn)]; omega)
      · rename_i hn
        exact ih _ (by rw [grantEvent_length (nextClaimant_claims hn)]; omega)
      · rename_i hn
        exact fun _ => .inr hn
      · rename_i hn
        exact fun _ => .inl hn
    · rename_i hg
      exact fun h => absurd h hg

/-- After the admission arbiter has run, no grant can be made. -/
theorem serveClaims_stuck (s : State) : (serveClaims s).stuck :=
  serveLoop_stuck _ s (by unfold Config.generalSlots; omega)

/-- Where no grant can be made the arbiter does nothing. -/
theorem serveClaims_of_stuck {s : State} (h : s.stuck) : serveClaims s = s := by
  unfold serveClaims
  generalize Config.generalSlots - s.generalQueue.length = n
  cases n with
  | zero => rfl
  | succ n =>
    simp only [serveLoop]
    split
    · rename_i hg
      rcases h hg with h | h <;> rw [h]
    · rfl

/-- A second run of the arbiter does nothing. -/
@[simp] theorem serveClaims_serveClaims (s : State) : serveClaims (serveClaims s) = serveClaims s := serveClaims_of_stuck (serveClaims_stuck s)

@[simp] theorem serveClaims_arrival (i : LineIdx) (s : State) : serveClaims (arrival i s) = arrival i s := serveClaims_serveClaims _

/-- The arbiter has run once a fault is recorded. -/
@[simp] theorem serveClaims_recordFault (k : FaultKind) (src : FaultSource) (w : Option WindowIdx) (t : Option (BitVec 6))
    (a : Option HostAddr) (c : Option FaultCount) (s : State) :
    serveClaims (recordFault k src w t a c s) = recordFault k src w t a c s := serveClaims_arrival _ _

/-- With no frame in the trunk ingress queue, the decoder's run is the arbiter's. -/
theorem decodeRun_empty (fresh : Bool) {s : State} (h : s.ingress = []) : decodeRun fresh s = serveClaims s := by
  simp [decodeRun, h, decodeLoop]

/-- With no frame in the trunk ingress queue, the end of a happening is the arbiter's run. -/
theorem settle_empty {s : State} (h : s.ingress = []) : settle s = serveClaims s := by
  unfold settle
  rw [decodeRun_empty _ (by simpa using h), serveClaims_serveClaims]

/-- Where no frame and no claimant waits, the end of a happening changes nothing. -/
theorem settle_quiet {s : State} (h : s.ingress = []) (ha : s.admitted) : settle s = s := by
  rw [settle_empty h, serveClaims_of_admitted ha]

end Sys2Proof.Machine
end

