-- ==== Sys2Proof/Laws/Host.lean ====
section
/-! SUPPORT. The arrival of a host frame at a router whose decoder is free: which frames pass, what is counted, and which part of the decoder then decides. The provers cite these for every command that the host sends. -/

namespace Sys2Proof.Machine

/-- A free trunk in UP hands its frames on. -/
theorem rxPhase_hostReady {s : State} (h : s.hostReady) : s.rxPhase .trunk = .live := by
  obtain ⟨hp, hs, hu, _⟩ := h
  simp [State.rxPhase, hp, hs, hu]

/-- The state in which the decoder examines a frame that arrived at an empty queue. -/
def State.headed (s : State) (f : HostFrame) : State :=
  { s with trunk := { s.trunk with framesIn := s.trunk.framesIn + 1 }, ingress := [f] }

/-- What the decoder does with a frame that arrived at an empty queue. -/
def State.decide (s : State) (f : HostFrame) (d : Fate) : State :=
  let s' := claimGeneral f d (s.headed f)
  if s'.canTake f d then serveClaims (takeFrame f d s') else serveClaims (waitHead true f d s')

/-- A valid frame of the host at a free decoder is counted, queued and examined at once (R41, R97, R126). -/
theorem receiveRequest_hostReady {s : State} (h : s.hostReady) {r : TrunkRequest} (hv : validRequest r = true)
    (hf : sizeFramed (requestSize r) = true) :
    receiveRequest r s = s.decide (requestFrame r) (s.fate (requestFrame r)) := by
  have hl := rxPhase_hostReady h
  obtain ⟨_, _, _, hi, _⟩ := h
  have hsl : ∀ c, (s.modLink .trunk LinkEnd.countIn).ingressSlot c = true := by
    intro c; cases c <;> simp [State.ingressSlot, State.freeA, State.freeB, hi, Config.ingressWrites, Config.ingressReads]
  simp only [receiveRequest, receive, hf, hl, if_true, acceptRequest, hv, hsl, enqueueTrunk]
  have hi' : (s.modLink .trunk LinkEnd.countIn).ingress = [] := by simp [hi]
  simp only [hi', List.isEmpty_nil, if_true, List.nil_append, decodeRun, List.length_cons, List.length_nil]
  have e : ({ s.modLink .trunk LinkEnd.countIn with ingress := [requestFrame r] } : State) = s.headed (requestFrame r) := by
    simp [State.headed, LinkEnd.countIn]
  rw [e]
  simp only [decodeLoop, State.headed]
  rfl

theorem validRequest_hostWriteFrame {a : HostAddr} {data : List Byte} (h1 : 1 ≤ data.length) (h2 : data.length ≤ 64) :
    validRequest (hostWriteFrame a data) = true ∧ sizeFramed (requestSize (hostWriteFrame a data)) = true ∧
      requestFrame (hostWriteFrame a data) = ⟨a, data.length, .write data⟩ := by
  have e : (BitVec.ofNat 8 data.length).toNat = data.length := by simp; omega
  refine ⟨?_, ?_, ?_⟩
  · simp only [hostWriteFrame, validRequest, validWrite, e, Bool.and_eq_true, beq_self_eq_true, and_true]
    exact ⟨decide_eq_true h1, decide_eq_true h2⟩
  · have hz : (9 + data.length) ≤ 73 := by omega
    simp only [hostWriteFrame, requestSize, sizeFramed, Bool.and_eq_true]
    exact ⟨decide_eq_true (by omega), decide_eq_true hz⟩
  · simp only [hostWriteFrame, requestFrame, e]

theorem validRequest_hostRead {a : HostAddr} {t : BitVec 6} {n : Nat} (h1 : 1 ≤ n) (h2 : n ≤ 64) :
    validRequest (hostRead t n a) = true ∧ sizeFramed (requestSize (hostRead t n a)) = true ∧
      requestFrame (hostRead t n a) = ⟨a, n, .read t⟩ := by
  have e : (BitVec.ofNat 8 n).toNat = n := by simp; omega
  refine ⟨?_, ?_, ?_⟩
  · have : t.toNat < 64 := t.isLt
    simp [hostRead, validRequest, e, h1, h2]; omega
  · simp [hostRead, requestSize, sizeFramed]
  · simp only [hostRead, requestFrame, e]
    congr 1
    congr 1
    ext i hi
    simp

/-- The windows that match an address by its proposition are those that lookup finds (R12). -/
theorem lookup_matchedBy {s : State} {a : HostAddr} {m : Option WindowIdx} (h : s.matchedBy a m) : s.lookup a = m := by
  unfold State.lookup
  cases m with
  | none =>
    rw [List.find?_eq_none]
    intro x _ hx
    simp [WindowRecord.contains] at hx
    exact h x hx
  | some w =>
    obtain ⟨hw, hx⟩ := h
    rw [List.find?_eq_some_iff_append]
    refine ⟨by simp [WindowRecord.contains]; exact hw, ?_⟩
    obtain ⟨as, bs, hab⟩ := List.append_of_mem (List.mem_finRange w)
    refine ⟨as, bs, hab, fun x hm => ?_⟩
    have hlt : x < w := by
      have hs : (List.finRange 24).Pairwise (· < ·) := List.pairwise_lt_finRange 24
      rw [hab, List.pairwise_append] at hs
      exact hs.2.2 x hm w (by simp)
    have := hx x hlt
    simp only [WindowRecord.serves] at this
    simp only [WindowRecord.contains, Bool.not_eq_true', Bool.and_eq_false_iff, decide_eq_false_iff_not, not_le]
    by_contra hcon
    simp only [not_or, Bool.not_eq_false, not_lt] at hcon
    exact this ⟨hcon.1, hcon.2⟩

/-- What lookup finds matches the address by its proposition (R12). -/
theorem matchedBy_lookup {s : State} {a : HostAddr} {m : Option WindowIdx} (h : s.lookup a = m) : s.matchedBy a m := by
  unfold State.lookup at h
  cases m with
  | none =>
    rw [List.find?_eq_none] at h
    intro x hx
    exact h x (List.mem_finRange x) (by simp [WindowRecord.contains]; exact hx)
  | some w =>
    obtain ⟨hw, as, bs, hab, hx⟩ := List.find?_eq_some_iff_append.mp h
    refine ⟨by simp [WindowRecord.contains] at hw; exact hw, fun x hlt hs => ?_⟩
    have hp : (List.finRange 24).Pairwise (· < ·) := List.pairwise_lt_finRange 24
    have hm := List.mem_finRange x
    rw [hab, List.pairwise_append, List.pairwise_cons] at hp
    rw [hab, List.mem_append, List.mem_cons] at hm
    rcases hm with hm | rfl | hm
    · have := hx x hm
      simp [WindowRecord.contains] at this
      obtain ⟨he, h1, h2⟩ := hs
      rcases this with h | h | h
      · simp [he] at h
      · exact absurd h1 (not_le.mpr h)
      · exact absurd h2 (not_le.mpr h)
    · exact absurd hlt (lt_irrefl _)
    · exact absurd hlt (lt_asymm (hp.2.1.1 x hm))

/-- A frame whose fate is no management request is decided by its fate alone: taken, or left to wait (R42). -/
theorem decide_plain {s : State} {f : HostFrame} {d : Fate} (hd : ¬(d = .management ∧ f.body.isRead = true)) :
    s.decide f d = if (s.headed f).canTake f d then serveClaims (takeFrame f d (s.headed f))
      else serveClaims (waitHead true f d (s.headed f)) := by
  simp only [State.decide, claimGeneral, hd, if_false]

theorem popHead_write {s : State} (h : s.hostReady) {f : HostFrame} {d : List Byte} (hf : f.body = .write d) :
    popHead f (s.headed f) = s.writeTaken := by
  obtain ⟨_, _, hu, hi, _⟩ := h
  simp [popHead, State.headed, hf, State.consume, HostBody.cls, State.linkEnd, State.linkLive, hu, State.writeTaken,
    LinkEnd.consume, hi]

theorem popHead_read {s : State} (h : s.hostReady) {f : HostFrame} {t : BitVec 6} (hf : f.body = .read t) :
    popHead f (s.headed f) = s.readTaken := by
  obtain ⟨_, _, hu, hi, _⟩ := h
  simp [popHead, State.headed, hf, State.consume, HostBody.cls, State.linkEnd, State.linkLive, hu, State.readTaken,
    LinkEnd.consume, hi]

/-- Taking a WRITE's effects. -/
theorem decide_write {s : State} (h : s.hostReady) {f : HostFrame} {d : List Byte} (hf : f.body = .write d) (fate : Fate)
    (hc : s.canTake f fate = true) : s.decide f fate = serveClaims (takeFate f fate s.writeTaken) := by
  have hn : ¬(fate = .management ∧ f.body.isRead = true) := by simp [hf, HostBody.isRead]
  have hc' : (s.headed f).canTake f fate = true := by
    rw [← hc]
    cases fate <;> simp [State.canTake, hf, HostBody.isRead, State.entryFor] <;> rfl
  rw [decide_plain hn, if_pos hc', takeFrame, popHead_write h hf]

/-- Taking a READ that is no management request. -/
theorem decide_read {s : State} (h : s.hostReady) {f : HostFrame} {t : BitVec 6} (hf : f.body = .read t) {fate : Fate}
    (hm : fate ≠ .management) (hc : s.canTake f fate = true) :
    s.decide f fate = serveClaims (takeFate f fate s.readTaken) := by
  have hn : ¬(fate = .management ∧ f.body.isRead = true) := by simp [hm]
  have hc' : (s.headed f).canTake f fate = true := by
    rw [← hc]
    cases fate <;> rfl
  rw [decide_plain hn, if_pos hc', takeFrame, popHead_read h hf]

/-- A frame that lacks a resource other than a slot of the general queue waits at the head (R42). -/
theorem decide_wait {s : State} (h : s.hostReady) {f : HostFrame} {fate : Fate} (hm : fate ≠ .management)
    (hc : s.canTake f fate = false) : s.decide f fate = s.headArrived f (s.claimFor f fate) fate.window := by
  have hn : ¬(fate = .management ∧ f.body.isRead = true) := by simp [hm]
  have hc' : (s.headed f).canTake f fate = false := by
    rw [← hc]
    cases fate <;> rfl
  rw [decide_plain hn, hc', if_neg (by simp)]
  have e : waitHead true f fate (s.headed f) = s.headArrived f (s.claimFor f fate) fate.window := by
    unfold waitHead
    cases fate <;> rfl
  rw [e]
  refine serveClaims_of_admitted ?_
  intro hg c
  have ha := h.2.2.2.2.1 hg c
  cases c with
  | decoder =>
    have : s.claimFor f fate ≠ .general := by
      cases fate <;> simp [State.claimFor] <;> first | exact absurd rfl hm | (split <;> simp)
    simp [State.claims, State.headArrived, this]
  | branch p => exact ha
  | eventUnit => exact ha

/-- A claim on the general queue alone, while a slot is free, is the decoder's turn (R141). -/
theorem nextClaimant_alone {s : State} (hd : s.decoder.claim = .general) (ho : ∀ c, c ≠ .decoder → s.claims c = false) :
    s.nextClaimant = some .decoder := by
  have hc : s.claims .decoder = true := by simp [State.claims, hd]
  have hb : ∀ p, s.claims (.branch p) = false := fun p => ho _ (by simp)
  have he : s.claims .eventUnit = false := ho _ (by simp)
  unfold State.nextClaimant
  have : s.arbLast.after.find? s.claims = some .decoder := by
    cases s.arbLast with
    | decoder => simp [Claimant.after, hc, hb, he]
    | eventUnit => simp [Claimant.after, hc]
    | branch p =>
      fin_cases p <;> simp [Claimant.after, hc, hb, he]
  exact this

/-- A management READ at a free decoder takes a free slot of the general queue at once (R52, R56, R141). -/
theorem decide_manageRead {s : State} (h : s.hostReady) {f : HostFrame} {t : BitVec 6} (hf : f.body = .read t)
    (hg : s.generalFree = true) : s.decide f .management = serveClaims (manageRead t f.address f.length s.readTaken) := by
  have ha := h.2.2.2.2.1 hg
  have hr : f.body.isRead = true := by simp [hf, HostBody.isRead]
  let u : State := { s.headed f with decoder := { (s.headed f).decoder with claim := .general } }
  have hgu : u.generalFree = true := hg
  have hn : u.nextClaimant = some .decoder := nextClaimant_alone rfl (by
    intro c hc
    cases c with
    | decoder => exact absurd rfl hc
    | branch p => exact ha (.branch p)
    | eventUnit => exact ha .eventUnit)
  have hu : serveClaims u = u := serveClaims_of_stuck (fun _ => .inr hn)
  have hcl : claimGeneral f .management (s.headed f) = u := by
    simp only [claimGeneral, hr, and_self, if_true]; exact hu
  have hct : u.canTake f .management = true := by
    simp only [State.canTake, hr, State.decoderTurn, hgu, Bool.not_true, Bool.false_or, Bool.true_and]
    have : ({ u with decoder := { u.decoder with claim := .general } } : State) = u := rfl
    rw [this, hn]; rfl
  have hp : popHead f u = s.readTaken := by
    rw [← popHead_read h hf]; rfl
  simp only [State.decide, hcl, hct, if_true, takeFrame, hp, takeFate, hf]

/-- A management READ that finds the general queue full waits with its claim (R52, R58). -/
theorem decide_manageRead_full {s : State} {f : HostFrame} {t : BitVec 6} (hf : f.body = .read t)
    (hg : s.generalFree = false) : s.decide f .management = s.headArrived f .general none := by
  have hr : f.body.isRead = true := by simp [hf, HostBody.isRead]
  let u : State := { s.headed f with decoder := { (s.headed f).decoder with claim := .general } }
  have hu : serveClaims u = u := serveClaims_of_stuck (fun h => by
    have : u.generalFree = false := hg
    rw [this] at h; exact absurd h (by simp))
  have hcl : claimGeneral f .management (s.headed f) = u := by
    simp only [claimGeneral, hr, and_self, if_true]; exact hu
  have hct : u.canTake f .management = false := by
    have : u.generalFree = false := hg
    simp only [State.canTake, hr, State.decoderTurn, this]; rfl
  have e : waitHead true f .management u = s.headArrived f .general none := rfl
  have hw : serveClaims (s.headArrived f .general none) = s.headArrived f .general none := serveClaims_of_stuck (fun h => by
    have : (s.headArrived f .general none).generalFree = false := hg
    rw [this] at h; exact absurd h (by simp))
  simp only [State.decide, hcl, hct, e, hw]
  simp

/-- The fate of a management request: it has no live ticket, and its first byte lies in the aperture (R43, R44). -/
theorem fate_management {s : State} {f : HostFrame} (ht : ∀ t, f.body = .read t → s.ticketLive t = false)
    (ha : s.inAperture f.address = true) : s.fate f = .management := by
  unfold State.fate
  cases hb : f.body with
  | read t => simp [ht t hb, ha]
  | write d => simp [ha]

/-- An offset of the aperture lies in it, and is its own offset (R167). -/
theorem aperture_offset {s : State} (h : s.apertureBase.toNat % 0x10000 = 0) {off : Nat} (ho : off < 0x10000) :
    s.inAperture (s.apertureBase + BitVec.ofNat 40 off) = true ∧
      s.offsetOf (s.apertureBase + BitVec.ofNat 40 off) = off := by
  have hb : s.apertureBase.toNat < 2 ^ 40 := s.apertureBase.isLt
  have e : (s.apertureBase + BitVec.ofNat 40 off).toNat = s.apertureBase.toNat + off := by
    rw [BitVec.toNat_add, BitVec.toNat_ofNat]
    omega
  constructor
  · simp [State.inAperture, e]; omega
  · simp [State.offsetOf, e]

/-- A management WRITE at a free decoder is applied at its arrival (R44, R57). -/
theorem hostWrite_hostReady {s : State} (h : s.hostReady) {off : Nat} (ho : off < 0x10000) {data : List Byte}
    (h1 : 1 ≤ data.length) (h2 : data.length ≤ 64) :
    hostWrite off data s = serveClaims (manageWrite (s.apertureBase + BitVec.ofNat 40 off) data s.writeTaken) := by
  obtain ⟨hv, hz, hfr⟩ := validRequest_hostWriteFrame (a := s.apertureBase + BitVec.ofNat 40 off) h1 h2
  have e : hostWrite off data s = receiveRequest (hostWriteFrame (s.apertureBase + BitVec.ofNat 40 off) data) s := rfl
  rw [e, receiveRequest_hostReady h hv hz, hfr]
  have hap := (aperture_offset h.2.2.2.2.2 ho).1
  have hfm : s.fate ⟨s.apertureBase + BitVec.ofNat 40 off, data.length, .write data⟩ = .management :=
    fate_management (by simp) hap
  rw [hfm, decide_write h rfl .management (by simp [State.canTake, HostBody.isRead])]
  rfl

end Sys2Proof.Machine
end

