-- ==== Sys2Proof/Machine/Lanes.lean ====
section
/-! DEFINITION. The lanes: what the router drives on each of them, and the receivers, which make commands of the symbols that arrive and of the reference clock (11_frame_formats_and_physical_summary.md, R186 and R190). No row of the table takes a symbol or a cycle of REFCLK, so the receivers stand before the queue of commands, outside `State` (log 27). -/

namespace Sys2Proof.Machine

/-! ### Symbols -/

/-- What a lane carries at a symbol's place: a data byte, one of the three control symbols of section 11.1, or a code
violation, which is no valid symbol. -/
inductive Symbol where
  | data (b : Byte)
  | frameStart
  | frameEnd
  | idle
  | violation
  deriving DecidableEq, Repr

/-- A frame as its symbols: its bytes between a frame start and a frame end (R186). -/
def frameSymbols (bytes : List Byte) : List Symbol := .frameStart :: bytes.map .data ++ [.frameEnd]

/-! ### What the router drives -/

/-- What the router drives on a lane: nothing, idle symbols, or a frame. -/
inductive LaneSignal where
  | undriven
  | idle
  | frame (f : TxFrame)
  deriving DecidableEq, Repr

/-- The signal of the lane toward a partner. A router with POR_N low and a branch port in OFF drive no symbols; any other
transmitter drives the frame in transmission, or idle symbols while it has none (section 11.1, R92, R119, R184, R190). -/
def State.drives (s : State) (l : Link) : LaneSignal :=
  let off := match l with
    | .trunk => false
    | .branch p => (s.port p).state == .off
  if !s.porN || off then .undriven
  else match (s.linkEnd l).transmitting with
    | some f => .frame f
    | none => .idle

/-- The symbols of a lane's signal, a frame with its CRC, and one symbol for each place of an idle lane (R186). -/
def LaneSignal.symbols : LaneSignal → List Symbol
  | .undriven => []
  | .idle => [.idle]
  | .frame f => frameSymbols f.bytes

/-! ### A receiver -/

/-- The receiver of a lane. -/
structure Receiver where
  /-- The bytes of the frame that is open, in arrival order (R186). -/
  frame : Option (List Byte)
  /-- The report: the incoming signal is present (R190). -/
  signal : Bool
  /-- A valid symbol has arrived in the present cycle of REFCLK. -/
  heard : Bool
  /-- Cycles of REFCLK since the last valid symbol, at most 50. -/
  quiet : Nat
  /-- Cycles of REFCLK since the first of the valid symbols that arrive without a break, at most 50; none where the last
  symbol broke them off or none has arrived. -/
  steady : Option Nat
  /-- REFCLK has stopped, and the 2 microseconds of router time after its return have not yet passed (R190, log 28). -/
  stopped : Bool
  deriving DecidableEq, Repr

/-- A receiver at the release of POR_N; that it reports its signal present is the model's choice (log 9). -/
def Receiver.reset : Receiver := ⟨none, true, false, 0, none, false⟩

/-- How many cycles of REFCLK are the 2 microseconds of R190, 25 to each microsecond of router time. -/
def detectCycles : Nat := 50

/-- A symbol's part in the detection of the signal (R190): a valid one ends a silence and begins or goes on with a run of
valid symbols, a code violation breaks the run off. -/
def Receiver.detect (x : Symbol) (r : Receiver) : Receiver :=
  if x = .violation then { r with steady := none }
  else { r with heard := true, quiet := 0, steady := some (r.steady.getD 0) }

/-- A symbol's part in the framing, and the frame that it ends (R186). A frame end gives the frame to its checks; a code
violation, an idle symbol or a second frame start in an open frame makes it a frame whose CRC fails, and the second start
opens a new one. Data bytes and frame ends outside a frame are dropped. R186 does not say whether such a frame fails at that
symbol or at the frame end that would follow: that it fails and is closed at the symbol is the model's choice (log 39). -/
def Receiver.deframe (l : Link) (x : Symbol) (r : Receiver) : Receiver × List Instr :=
  match r.frame, x with
  | none, .frameStart => ({ r with frame := some [] }, [])
  | none, .data _ => (r, [])
  | none, .frameEnd => (r, [])
  | none, .idle => (r, [])
  | none, .violation => (r, [])
  | some bytes, .data b => ({ r with frame := some (bytes ++ [b]) }, [])
  | some bytes, .frameEnd => ({ r with frame := none }, [frameCommand l bytes])
  | some _, .frameStart => ({ r with frame := some [] }, [.crcError l])
  | some _, .idle => ({ r with frame := none }, [.crcError l])
  | some _, .violation => ({ r with frame := none }, [.crcError l])

/-- A symbol arrives. A receiver whose signal is absent delivers no frames, and none delivers a symbol while REFCLK is
stopped (R190). That it goes on delivering none after REFCLK has returned, until it has reported, is the model's reading
(log 28). -/
def Receiver.take (l : Link) (x : Symbol) (r : Receiver) : Receiver × List Instr :=
  if r.stopped then (r, [])
  else
    let r := r.detect x
    if r.signal then r.deframe l x else (r, [])

/-- A run of symbols, and the commands it makes, in order. -/
def Receiver.hear (l : Link) : List Symbol → Receiver → Receiver × List Instr
  | [], r => (r, [])
  | x :: xs, r =>
    let (r, cs) := r.take l x
    let (r, ds) := r.hear l xs
    (r, cs ++ ds)

/-- A cycle of REFCLK at a receiver. The report is absent, and the frame that is open is dropped, at the cycle that makes 2
microseconds since the last valid symbol; it is present again at the cycle that makes 2 microseconds since the first of the
valid symbols that arrived without a break (R190). A cycle without a valid symbol is a break too, and the receiver reports
at cycles: the model's choice (log 27). -/
def Receiver.cycle (l : Link) (r : Receiver) : Receiver × List Instr :=
  let quiet := min detectCycles (r.quiet + 1)
  let steady := if r.heard then r.steady.map fun n => min detectCycles (n + 1) else none
  let r := { r with heard := false, quiet := quiet, steady := steady }
  if quiet = detectCycles then
    ({ r with frame := none, signal := false, stopped := false }, if r.signal then [.signalLost l] else [])
  else if steady = some detectCycles ∧ r.signal = false then ({ r with signal := true }, [.signalPresent l])
  else (r, [])

/-- REFCLK stops: the lane delivers no valid symbol, and the receiver reports its signal absent after 2 microseconds of
router time once REFCLK returns (R190, log 28). -/
def Receiver.stop (r : Receiver) : Receiver :=
  { r with heard := false, quiet := 0, steady := none, stopped := true }

/-! ### The clock, the pins and the five receivers -/

/-- What reaches the router from outside before it is a command. -/
inductive FrontInput where
  /-- A symbol arrives on the lane of a link (R186). -/
  | symbol (l : Link) (x : Symbol)
  /-- A cycle of REFCLK (R190). -/
  | refclk
  /-- REFCLK stops; its next cycle is its return (R190). -/
  | refclkStop
  /-- POR_N goes low (R184). -/
  | porLow
  /-- POR_N goes high with these levels on ID1 and ID0 (R185, R190). -/
  | porHigh (id1 id0 : Bool)
  deriving DecidableEq, Repr

/-- The five receivers, and the cycles of REFCLK since router time last advanced. -/
structure Front where
  cycles : Nat
  trunk : Receiver
  branches : Vector Receiver 4
  deriving DecidableEq, Repr

/-- The front at the release of POR_N. -/
def Front.reset : Front := ⟨0, .reset, .replicate 4 .reset⟩

/-- The receiver of a link's lane. -/
def Front.receiver (f : Front) : Link → Receiver
  | .trunk => f.trunk
  | .branch p => f.branches[p]

/-- The receiver of a link's lane, replaced. -/
def Front.setReceiver (f : Front) (l : Link) (r : Receiver) : Front :=
  match l with
  | .trunk => { f with trunk := r }
  | .branch p => { f with branches := f.branches.set p r }

/-- The five links, the trunk first. -/
def Link.all : List Link := .trunk :: (List.finRange 4).map .branch

/-- A cycle of REFCLK at the receiver of a link, its report after what stands before it. -/
def Front.cycleAt (x : Front × List Instr) (l : Link) : Front × List Instr :=
  let (r, cs) := (x.1.receiver l).cycle l
  (x.1.setReceiver l r, x.2 ++ cs)

/-- Router time advances at each 25 cycles of REFCLK (R176, R190). -/
def Front.count (f : Front) : Front × List Instr :=
  if f.cycles + 1 < 25 then ({ f with cycles := f.cycles + 1 }, []) else ({ f with cycles := 0 }, [.routerTimeTick])

/-- One input, and the commands that it makes. A cycle of REFCLK counts toward router time and then comes about at each
receiver; while REFCLK stops no cycle arrives and router time stops (R176, R190). -/
def Front.take (i : FrontInput) (f : Front) : Front × List Instr :=
  match i with
  | .symbol l x =>
    let (r, cs) := (f.receiver l).take l x
    (f.setReceiver l r, cs)
  | .refclk => Link.all.foldl Front.cycleAt f.count
  | .refclkStop => (Link.all.foldl (fun f l => f.setReceiver l (f.receiver l).stop) f, [])
  | .porLow => (.reset, [.porAssert])
  | .porHigh id1 id0 => (.reset, [.porRelease id1 id0])

/-- A run of inputs, and the commands it makes, in order. -/
def Front.run : List FrontInput → Front → Front × List Instr
  | [], f => (f, [])
  | i :: is, f =>
    let (f, cs) := f.take i
    let (f, ds) := f.run is
    (f, cs ++ ds)

/-- The commands that a run of inputs makes join the queue of the commands that wait. -/
def State.await (s : State) (f : Front) (is : List FrontInput) : State :=
  { s with pending := s.pending ++ (f.run is).2 }

end Sys2Proof.Machine
end

