-- ==== Sys2Proof/WellFormed.lean ====
section
/-! DEFINITION. Which commands are well formed: the operands that a happening of the row's kind can have. What the router checks itself (R98, R171, R172) is not a condition here. -/

namespace Sys2Proof

/-- A frame whose layout has `header` bytes, CRC included, before or around its `data` (R186, R187): its size
can be framed, and its data is what is left after the header. -/
def frameOperands (size header : Nat) (data : List Byte) : Bool :=
  sizeFramed size && data.length == size - header

/-- The operands of a frame of the trunk (R187). -/
def TrunkRequest.wellFormed : TrunkRequest → Bool
  | .read size .. => sizeFramed size
  | .write size _ _ data => frameOperands size 9 data

/-- How many counters a link's record holds: four, and a branch's stale counter (R179). -/
def linkCounters : Link → Nat
  | .trunk => 4
  | .branch _ => 5

/-- A command whose operands are those of a happening of its row. -/
def Instr.wellFormed : Instr → Bool
  | .trunkIngressFrame f => f.wellFormed
  | .trunkReset size => sizeFramed size
  | .syncReceived _ size _ _ => sizeFramed size
  | .syncAckReceived _ size _ _ => sizeFramed size
  | .creditReceived _ size _ _ => sizeFramed size
  | .moduleWriteArrival _ size _ _ data => frameOperands size 8 data
  | .branchResultArrival _ size _ _ _ data => frameOperands size 5 data
  | .eventFrame _ size _ => sizeFramed size
  | .dozeAck _ size => sizeFramed size
  | .moduleWake _ size => sizeFramed size
  | .disallowedKindFrame l size k => sizeFramed size && !kindAllowed l k
  | .counterClear l first count _ => 1 ≤ count && first + count ≤ linkCounters l
  | .managementWrite _ data => 1 ≤ data.length && data.length ≤ 64
  | .porAssert => true
  | .porRelease _ _ => true
  | .signalLost _ => true
  | .crcError _ => true
  | .resendDeadline _ => true
  | .retryDeadline _ => true
  | .ticketDeadline _ => true
  | .headWaitDeadline => true
  | .answerDeadline _ => true
  | .wakeDeadline _ => true
  | .idleDeadline _ => true
  | .syncTransmit _ => true
  | .syncAckTransmit _ => true
  | .creditTransmit _ => true
  | .dozeReqTransmit _ => true
  | .wakeTransmit _ => true
  | .branchEgressTransmit _ => true
  | .replyLaneTransmit => true
  | .generalQueueTransmit => true
  | .windowRecordWrite _ _ => true
  | .apertureBaseWrite _ => true
  | .ticketLifetimeWrite _ => true
  | .headWaitLimitWrite _ => true
  | .routerReset => true
  | .portEnable _ _ _ _ => true
  | .autoDozeIntervalWrite _ _ _ _ => true
  | .dozeCommand _ => true
  | .wakeCommand _ => true
  | .portResetCommand _ => true
  | .eventLineEnableWrite _ _ _ => true
  | .ack _ => true
  | .clear _ => true
  | .pop => true
  | .droppedCountClear _ => true
  | .signalPresent _ => true
  | .routerTimeTick => true
  | .transmitterFree _ => true

end Sys2Proof
end

