-- ==== Sys2Proof/Certificates/Slice0/Obligations.lean ====
section
/-! DEFINITION. The statements for the provers. Each `def` is a proposition that its name says; OBLIGATIONS.json gives the rule it comes from. -/

open Sys2Proof Sys2Proof.Machine

/-! ### The queue, power and time -/

/-- A step takes the command at the front of the queue and runs it on the state with the queue's rest; that a block with
no command waiting idles is the model's choice (log 2). -/
def Obligations.StepRunsTheFrontCommand : Prop :=
  ∀ s : State,
    (∀ (c : Instr) (rest : List Instr), s.pending = c :: rest → step s = exec c { s with pending := rest }) ∧
    (s.pending = [] → step s = .next s)

/-- Every command answers a next state in every state, and no command touches the queue of commands. Both rest on the
model's choices: a command whose happening cannot come about in the present state leaves it as it is (log 3), and the queue
holds the order in which happenings come (log 26). -/
def Obligations.CommandsCompleteAndKeepTheQueue : Prop :=
  ∀ (c : Instr) (s : State), ∃ t, exec c s = .next t ∧ t.pending = s.pending

/-- What `State.reset` holds, item by item: the power-on values of every block, with the trunk's first SYNC of A = 16 and
B = 8 just sent (R5, R60, R64, R85, R87, R103, R138, R141, R158, R166, R168, R185). These of its values are the model's
choices: POR_N high and strap ID 0 (log 1), every signal present (log 9), the credit items of the branch links 0 and nothing
due on them (log 10), no SYNC held back (log 6), SYNCs sent 0 in OFF (log 32), and no command waiting (log 26). -/
def Obligations.ResetState : Prop :=
  let s := State.reset
  s.porN = true ∧ s.strapId = 0 ∧
  s.time = 0 ∧ s.apertureBase = 0xFFFFFC0000 ∧ s.ticketLifetime = 50000 ∧ s.headWaitLimit = 2000 ∧
  (∀ w, s.window w = ⟨false, .pass, false, false, 0, 0, 0, 0⟩ ∧ s.windowState w = .disabled ∧ s.holdList w = []) ∧
  s.ingress = [] ∧ s.decoder = ⟨none, .noClaim, none⟩ ∧
  (∀ i, s.entry i = ⟨0, none⟩) ∧ (∀ p, s.sentOf p = []) ∧
  s.trunkState = .training ∧ (let e := s.trunk
    e.signal = true ∧ e.transmitting = some (.sync 16 8) ∧ e.syncsSent = 1 ∧ e.resend = some 100 ∧ e.retry = none ∧
    e.adoptedA = 0 ∧ e.adoptedB = 0 ∧ e.sentA = 0 ∧ e.sentB = 0 ∧ e.reportedA = 0 ∧ e.reportedB = 0 ∧
    e.consumedA = 0 ∧ e.consumedB = 0 ∧ e.creditPending = false ∧ e.syncAckDue = false ∧ e.syncDue = false ∧
    e.framesOut = 1 ∧ e.framesIn = 0 ∧ e.crcErrors = 0 ∧ e.framesDiscarded = 0) ∧
  (∀ p, let b := s.port p
    b.state = .off ∧ b.autoDoze = 0 ∧ b.wakeLimit = 1000 ∧ b.upWriteEnable = false ∧ b.upOffset = 0 ∧
    b.dozeRequested = false ∧ b.lastResult = .none ∧ b.queue = [] ∧ b.buffer = [] ∧ b.answer = none ∧ b.wake = none ∧
    b.idle = none ∧ b.dozeReqDue = false ∧ b.wakeDue = false ∧ b.stale = 0) ∧
  (∀ p, let e := (s.port p).link
    e.signal = true ∧ e.transmitting = none ∧ e.syncsSent = 0 ∧ e.resend = none ∧ e.retry = none ∧
    e.adoptedA = 0 ∧ e.adoptedB = 0 ∧ e.sentA = 0 ∧ e.sentB = 0 ∧ e.reportedA = 0 ∧ e.reportedB = 0 ∧
    e.consumedA = 0 ∧ e.consumedB = 0 ∧ e.creditPending = false ∧ e.syncAckDue = false ∧ e.syncDue = false ∧
    e.framesOut = 0 ∧ e.framesIn = 0 ∧ e.crcErrors = 0 ∧ e.framesDiscarded = 0) ∧
  s.replyLane = [] ∧ s.generalQueue = [] ∧ s.laneLast = .general ∧ s.arbLast = .eventUnit ∧
  (∀ i, s.line i = ⟨false, 0, .idle, 0⟩) ∧ s.lastLine = 32 ∧ s.faultLog = [] ∧ s.dropped = 0 ∧ s.pending = []

/-- POR_RELEASE, in any state: every block at its power-on values, the strap ID sampled with ID1 the more significant
bit, the aperture at its strap default, and the trunk in TRAINING with its first SYNC sent, while every branch lane stays
undriven (R87, R168, R185, R190). The
model's choices in it: it acts where POR_N is high already (log 1), the signals are present (log 9), and the credit items of
the branch link ends are 0 (log 10). -/
def Obligations.PorReleaseGivesPowerOnValues : Prop :=
  ∀ (id1 id0 : Bool) (s : State),
    let strap : Nat := 2 * id1.toNat + id0.toNat
    exec (.porRelease id1 id0) s = .next { State.reset with
      strapId := BitVec.ofNat 2 strap
      apertureBase := BitVec.ofNat 40 (0xFFFFFC0000 + strap * 0x10000)
      pending := s.pending } ∧
    ∀ t, exec (.porRelease id1 id0) s = .next t →
      t.drives .trunk = .frame (.sync 16 8) ∧ ∀ p, t.drives (.branch p) = .undriven

/-- POR_ASSERT, in any state: router time is 0, every queue, list, entry and record is lost, no lane is driven, and no
fault record is added (R184); the sampled strap ID is kept (R168). That the trunk then stands in DOWN, every port in OFF,
every line in IDLE, every window disabled and the dropped count at 0 is the model's reading of "keeps nothing" (log 25). -/
def Obligations.PorAssertLosesEverything : Prop :=
  ∀ s : State, ∃ t, exec .porAssert s = .next t ∧ t.porN = false ∧ t.strapId = s.strapId ∧ t.time = 0 ∧
    t.ingress = [] ∧ t.replyLane = [] ∧ t.generalQueue = [] ∧ t.faultLog = [] ∧ t.dropped = 0 ∧
    (∀ w, t.holdList w = [] ∧ (t.window w).enable = false) ∧ (∀ i, (t.entry i).live = none) ∧
    (∀ i, (t.line i).state = .idle) ∧ (∀ l, (t.linkEnd l).transmitting = none ∧ t.drives l = .undriven) ∧ t.trunkState = .down ∧
    (∀ p, (t.port p).state = .off ∧ (t.port p).queue = [] ∧ (t.port p).buffer = []) ∧ t.pending = s.pending

/-- While POR_N is low, no command but its release and its assertion changes anything: no frame is received and router
time stays (R176, R184). That it is so for every command, the reports of the signals among them, is the model's reading
(log 25). -/
def Obligations.LowPorIgnoresEveryOtherCommand : Prop :=
  ∀ (c : Instr) (s : State), s.porN = false → c ≠ .porAssert → (∀ id1 id0, c ≠ .porRelease id1 id0) →
    exec c s = .next s

/-- ROUTER_TIME_TICK advances router time by one and wraps, and changes nothing else where no draining window has a head
that fails its examination; SIGNAL_PRESENT sets the report of its link alone; TRANSMITTER_FREE ends the frame in
transmission of its link alone. Each 25 cycles of REFCLK make one tick. A receiver reports its signal lost, and drops the
frame that is open, at the cycle that makes 2 microseconds (50 cycles) since the last valid symbol; present again at the one
that makes 2 since the first of the valid symbols that arrive without a break, a code violation or a silence; and lost after 2
of router time once REFCLK returns (R95, R176, R190). The model's choices: that failing heads which trunk loss uncovered end
at the next tick (log 16), and that a receiver reports at a cycle of REFCLK, after the tick, a silence of one cycle being a
break (log 27). -/
def Obligations.TickReportAndFreeChangeOneItem : Prop :=
  (∀ (s : State) (l : Link), s.porN = true →
    ((∀ w h rest, s.windowState w = .drain → s.holdList w = h :: rest → 1 ≤ h.length ∧ s.headFault w h = none) →
      exec .routerTimeTick s = .next { s with time := s.time + 1 }) ∧
    (∃ t, exec .routerTimeTick s = .next t ∧ t.time = s.time + 1) ∧
    exec (.signalPresent l) s = .next (s.setLink l { s.linkEnd l with signal := true }) ∧
    exec (.transmitterFree l) s = .next (s.setLink l { s.linkEnd l with transmitting := none })) ∧
  (∀ f : Front, f.cycles < 25 →
    (let x := f.run (List.replicate 25 .refclk)
     x.1.cycles = f.cycles ∧ x.2.filter (fun c => c = .routerTimeTick) = [.routerTimeTick] ∧
      ∀ c ∈ x.2, c = .routerTimeTick ∨ ∃ l, c = .signalLost l ∨ c = .signalPresent l) ∧
    (f.run (.refclkStop :: List.replicate 50 .refclk)).2 =
      [.routerTimeTick, .routerTimeTick] ++ (Link.all.filter fun l => (f.receiver l).signal).map .signalLost ∧
    ∀ l, ((f.run (.refclkStop :: List.replicate 50 .refclk)).1.receiver l).signal = false) ∧
  ∀ (f : Front) (l : Link), (f.receiver l).stopped = false →
    let hears := fun (xs : List Symbol) => xs.flatMap fun x => [FrontInput.symbol l x, .refclk]
    ((f.receiver l).signal = true → ∀ (x : Symbol) (n : Nat), x ≠ .violation →
      let t := f.run (.symbol l x :: List.replicate n .refclk)
      (.signalLost l ∈ t.2 ↔ 50 ≤ n) ∧ ((t.1.receiver l).signal = true ↔ n < 50) ∧
      (50 ≤ n → (t.1.receiver l).frame = none)) ∧
    ((f.receiver l).signal = false → (f.receiver l).steady = none → ∀ xs : List Symbol, .violation ∉ xs →
      (.signalPresent l ∈ (f.run (hears xs)).2 ↔ 50 ≤ xs.length) ∧
      ∀ ys : List Symbol, .violation ∉ ys → xs.length < 50 → ys.length < 50 →
        ∀ b : FrontInput, b = .symbol l .violation ∨ b = .refclk →
          .signalPresent l ∉ (f.run (hears xs ++ b :: hears ys)).2)

/-! ### Training and link control -/

/-- The resend deadline in TRAINING with fewer than 32 SYNCs sent: the next SYNC goes out with the free capacities, the
consumption counts and CREDIT pending are cleared and the deadline is 100 microseconds on; while a frame is in
transmission the SYNC is deferred, the deadline then absent (log 7). The retry deadline in DOWN: the link enters TRAINING
and sends its first SYNC; on a branch draining windows may then be granted slots and the decoder examines its head (R34,
R53, R86, R87, R92). -/
def Obligations.TrainingDeadlinesSendSyncs : Prop :=
  ∀ s : State, s.porN = true →
    (∀ l : Link, let e := s.linkEnd l
      s.linkTraining l = true → s.reached e.resend = true → e.syncsSent < 32 →
      (e.transmitting = none → exec (.resendDeadline l) s = .next (s.setLink l { e with
        transmitting := some (.sync (BitVec.ofNat 8 (s.freeA l)) (BitVec.ofNat 8 (s.freeB l)))
        framesOut := e.framesOut + 1, consumedA := 0, consumedB := 0, creditPending := false, syncDue := false
        syncsSent := e.syncsSent + 1, resend := some (s.time + 100) })) ∧
      (e.transmitting ≠ none → exec (.resendDeadline l) s =
        .next (s.setLink l { e with syncDue := true, resend := none }))) ∧
    (s.trunkState = .down → s.reached s.trunk.retry = true → s.trunk.transmitting = none →
      exec (.retryDeadline .trunk) s = .next { s with
        trunkState := .training
        trunk := { s.trunk with
          retry := none, syncAckDue := false, creditPending := false, syncDue := false
          transmitting := some (.sync (BitVec.ofNat 8 (16 - s.ingressCount false)) (BitVec.ofNat 8 (8 - s.ingressCount true)))
          framesOut := s.trunk.framesOut + 1, consumedA := 0, consumedB := 0, syncsSent := 1
          resend := some (s.time + 100) } }) ∧
    ∀ p, let b := s.port p
      b.state = .down → s.reached b.link.retry = true → b.link.transmitting = none →
      exec (.retryDeadline (.branch p)) s = .next (settle (grantWindows p (s.setPort p { b with
        state := .training, dozeRequested := false, answer := none, wake := none, idle := none
        dozeReqDue := false, wakeDue := false
        link := { b.link with
          retry := none, syncAckDue := false, creditPending := false, syncDue := false
          transmitting := some (.sync (BitVec.ofNat 8 (2 - b.buffer.length)) 4)
          framesOut := b.link.framesOut + 1, consumedA := 0, consumedB := 0, syncsSent := 1
          resend := some (s.time + 100) } })))

/-- A SYNC or SYNC-ACK that is transmitted carries the free capacities of that happening, sets the consumption counts
to 0 and clears CREDIT pending (R86); a SYNC adds one to SYNCs sent and sets the resend deadline (R87), a SYNC-ACK is no
longer due. A CREDIT is transmitted in UP or DOZE_WAIT with the consumption counts, which run on, and clears CREDIT
pending; a SYNC-ACK that is due goes first (R93, R95). Each adds one to frames out and changes nothing else (R101). That the
command of a CREDIT which is not first in that order leaves the state is the model's choice (log 3). -/
def Obligations.LinkControlFramesAreTransmitted : Prop :=
  ∀ (l : Link) (s : State), let e := s.linkEnd l
    let a : Byte := BitVec.ofNat 8 (s.freeA l)
    let b : Byte := BitVec.ofNat 8 (s.freeB l)
    s.porN = true → e.transmitting = none →
    (s.linkTraining l = true → e.syncDue = true →
      exec (.syncTransmit l) s = .next (s.setLink l { e with
        transmitting := some (.sync a b), framesOut := e.framesOut + 1, consumedA := 0, consumedB := 0
        creditPending := false, syncDue := false, syncsSent := e.syncsSent + 1
        resend := some (s.time + 100) })) ∧
    (s.linkLive l = true → e.syncAckDue = true →
      exec (.syncAckTransmit l) s = .next (s.setLink l { e with
        transmitting := some (.syncAck a b), framesOut := e.framesOut + 1, consumedA := 0, consumedB := 0
        creditPending := false, syncAckDue := false })) ∧
    (s.linkLive l = true → e.creditPending = true → e.syncAckDue = false →
      exec (.creditTransmit l) s = .next (s.setLink l { e with
        transmitting := some (.credit e.consumedA e.consumedB), framesOut := e.framesOut + 1
        creditPending := false })) ∧
    (e.syncAckDue = true → exec (.creditTransmit l) s = .next s)

/-- A DOZE-REQ that is due in DOZE_WAIT is transmitted and sets the answer deadline 200 microseconds on; a WAKE that is
due in UP or WAKING is transmitted; each adds one to frames out. Neither goes ahead of a SYNC-ACK or CREDIT that is due in UP
or DOZE_WAIT: it then stays as it is (R95, R101, R110, R115). That the command of a frame which is not first in that order
leaves the state is the model's choice (log 3), and so is that a CREDIT pending in WAKING, which is sent in UP alone, does
not hold back the WAKE (log 23). -/
def Obligations.DozeReqAndWakeAreTransmitted : Prop :=
  ∀ (p : PortIdx) (s : State), let b := s.port p
    let first : Prop := b.link.syncAckDue = false ∧ b.link.creditPending = false
    let req := exec (.dozeReqTransmit p) s
    let wake := exec (.wakeTransmit p) s
    s.porN = true → b.link.transmitting = none →
    (b.state = .dozeWait → b.dozeReqDue = true → first → req = .next (s.setPort p { b with
      link := { b.link with transmitting := some .dozeReq, framesOut := b.link.framesOut + 1 }
      dozeReqDue := false, answer := some (s.time + 200) })) ∧
    (b.state = .dozeWait → b.dozeReqDue = true → ¬first → req = .next s) ∧
    (b.state = .waking ∨ b.state = .up ∧ first → b.wakeDue = true → wake = .next (s.setPort p { b with
      link := { b.link with transmitting := some .wake, framesOut := b.link.framesOut + 1 }
      wakeDue := false })) ∧
    (b.state = .up → b.wakeDue = true → ¬first → wake = .next s)

/-! ### Transmissions of traffic -/

/-- The head of a branch egress queue leaves in UP, with credit of its class and nothing ahead of it: a WRITE with its
address and data, a READ with its branch ticket, index times 4 plus epoch, its entry going to SENT at the tail of its
port's sent order; then the slot is granted, and idleness and the decoder's head are looked at (R34, R64, R68, R95,
R109, R113). -/
def Obligations.BranchEgressTransmitsItsHead : Prop :=
  ∀ (p : PortIdx) (s : State) (q : Queued) (rest : List Queued), let b := s.port p
    s.porN = true → b.state = .up → b.queue = q :: rest → b.link.transmitting = none → b.link.syncAckDue = false →
    b.link.creditPending = false → b.wakeDue = false →
    (∀ data, q.body = .write data → b.link.adoptedA + b.link.reportedA - b.link.sentA ≠ 0 →
      exec (.branchEgressTransmit p) s = .next (settle (refreshIdle p (grantWindows p (s.setPort p { b with
        queue := rest
        link := { b.link with
          transmitting := some (.moduleWrite q.address data), framesOut := b.link.framesOut + 1
          sentA := b.link.sentA + 1 } }))))) ∧
    (∀ i v r, q.body = .read i → (s.entry i).live = some v → v.stage = .queued r →
      b.link.adoptedB + b.link.reportedB - b.link.sentB ≠ 0 →
      exec (.branchEgressTransmit p) s = .next (settle (refreshIdle p (grantWindows p
        (((s.setPort p { b with
          queue := rest
          link := { b.link with
            transmitting := some (.moduleRead (BitVec.ofNat 6 (4 * i.val + (s.entry i).epoch.toNat)) q.length q.address)
            framesOut := b.link.framesOut + 1, sentB := b.link.sentB + 1 } }).setEntry i
          { s.entry i with live := some { v with stage := .sent r } }).setSentOf p (s.sentOf p ++ [i]))))))

/-- The head answer of the reply lane is transmitted in UP with INBOUND credit, when the general queue is empty or its
lane was served last, and waits its turn when both lanes can offer and its own was served last: the RESULT carries the
host ticket, the status and the data; the entry becomes FREE with its epoch, and the decoder examines a waiting head again
(R53, R75, R76, R137, R138). That the command of a lane whose turn it is not leaves the state is the model's choice (log
3). -/
def Obligations.ReplyLaneTransmitsItsHead : Prop :=
  ∀ (s : State) (i : EntryIdx) (rest : List EntryIdx) (v : Live) (r : Option Route) (st : Status) (data : List Byte),
    s.porN = true → s.trunkState = .up → s.trunk.transmitting = none → s.trunk.syncAckDue = false →
    s.trunk.creditPending = false → s.replyLane = i :: rest → (s.entry i).live = some v →
    v.stage = .replying r st data → s.trunk.adoptedA + s.trunk.reportedA - s.trunk.sentA ≠ 0 →
    (s.generalQueue ≠ [] → s.laneLast = .reply → exec .replyLaneTransmit s = .next s) ∧
    (s.generalQueue = [] ∨ s.laneLast = .general →
    exec .replyLaneTransmit s = .next (settle { s.setEntry i ⟨(s.entry i).epoch, none⟩ with
      replyLane := rest
      laneLast := .reply
      trunk := { s.trunk with
        transmitting := some (.result v.ticket st data), framesOut := s.trunk.framesOut + 1
        sentA := s.trunk.sentA + 1 } }))

/-- The head of the general queue is transmitted in UP when the reply lane's head cannot be offered or its lane was
served last: a NOTICE without credit, a RESULT or WRITE with INBOUND credit, which it uses; then the freed slot is
granted (R136, R137, R138, R141). That the command of a lane whose turn it is not leaves the state is the model's choice
(log 3). -/
def Obligations.GeneralQueueTransmitsItsHead : Prop :=
  ∀ (s : State) (f : GeneralFrame) (rest : List GeneralFrame),
    let credit := s.trunk.adoptedA + s.trunk.reportedA - s.trunk.sentA
    s.porN = true → s.trunkState = .up → s.trunk.transmitting = none → s.trunk.syncAckDue = false →
    s.trunk.creditPending = false → s.generalQueue = f :: rest →
    (s.replyLane ≠ [] → credit ≠ 0 → s.laneLast = .general → exec .generalQueueTransmit s = .next s) ∧
    (s.replyLane = [] ∨ credit = 0 ∨ s.laneLast = .reply →
    (∀ v, f = .notice v → exec .generalQueueTransmit s = .next (settle { s with
      generalQueue := rest, laneLast := .general
      trunk := { s.trunk with transmitting := some (.notice v), framesOut := s.trunk.framesOut + 1 } })) ∧
    (∀ w, f = .write w → credit ≠ 0 → exec .generalQueueTransmit s = .next (settle { s with
      generalQueue := rest, laneLast := .general
      trunk := { s.trunk with
        transmitting := some (.hostWrite w.address w.data), framesOut := s.trunk.framesOut + 1
        sentA := s.trunk.sentA + 1 } })) ∧
    (∀ t st data, f = .result t st data → credit ≠ 0 → exec .generalQueueTransmit s = .next (settle { s with
      generalQueue := rest, laneLast := .general
      trunk := { s.trunk with
        transmitting := some (.result t st data), framesOut := s.trunk.framesOut + 1
        sentA := s.trunk.sentA + 1 } })))

/-! ### Received frames -/

/-- A frame on a link that is deaf has no effect: while POR_N is low, the signal is absent, or the link is in OFF or DOWN
(R92, R102, R184, R190). A frame of less than 3 or more than 73 bytes is as one whose CRC fails (R186). In TRAINING and
WAKING every frame but a valid SYNC, or in TRAINING a valid SYNC-ACK, is counted and discarded, with no record, and not
consumed (R97, R120). -/
def Obligations.FramesOutsideUpAreCountedAtMost : Prop :=
  ∀ (c : Instr) (s : State) (l : Link) (size : Nat) (body : List Byte), let e := s.linkEnd l
    frameBody c = some (l, size, body) →
    (s.rxPhase l = .deaf → exec c s = .next s) ∧
    (size < 3 ∨ 73 < size → exec c s = exec (.crcError l) s) ∧
    (3 ≤ size → size ≤ 73 →
      s.rxPhase l = .training ∧
          ((∀ z a b, c ≠ .syncReceived l z a b) ∧ (∀ z a b, c ≠ .syncAckReceived l z a b) ∨ ¬s.frameMeets c) ∨
        s.rxPhase l = .waking ∧ ((∀ z a b, c ≠ .syncReceived l z a b) ∨ ¬s.frameMeets c) →
      exec c s = .next (s.setLink l { e with framesIn := e.framesIn + 1, framesDiscarded := e.framesDiscarded + 1 }))

/-- A frame that fails the checks of R98 or R94 in UP or DOZE_WAIT, and in DOZE every frame but a valid SYNC or WAKE, is
discarded: it is counted, it is consumed if it is of a receive class, which makes a CREDIT due in UP and DOZE_WAIT, and
FRAME_INVALID carries the kind byte, its first byte (R93, R98, R119). That a kind which is not allowed belongs to no receive
class, also 0x38 to 0x3F on a branch, is the model's reading (log 22). -/
def Obligations.InvalidFramesAreDiscardedWithARecord : Prop :=
  ∀ (c : Instr) (s : State) (l : Link) (size : Nat) (kind : Byte) (rest : List Byte), let e := s.linkEnd l
    frameBody c = some (l, size, kind :: rest) → 3 ≤ size → size ≤ 73 →
    s.rxPhase l = .live ∧ ¬s.frameMeets c ∨
      s.rxPhase l = .doze ∧ ((∀ z a b, c ≠ .syncReceived l z a b) ∧ (∀ p z, c ≠ .moduleWake p z) ∨ ¬s.frameMeets c) →
    exec c s = .next (recordFault .frameInvalid (linkSource l) none none none (some (.one (kind.setWidth 16)))
      (s.setLink l { e with
        framesIn := e.framesIn + 1
        framesDiscarded := e.framesDiscarded + 1
        consumedA := if receiveClass c = some .a then e.consumedA + 1 else e.consumedA
        consumedB := if receiveClass c = some .b then e.consumedB + 1 else e.consumedB
        creditPending := e.creditPending || (s.rxPhase l == .live && (receiveClass c).isSome) }))

/-- A frame whose CRC fails: in UP and DOZE_WAIT it is counted, CRC_ERROR is recorded, and the link enters TRAINING with
its first SYNC, or with one that waits for the frame in transmission; in TRAINING, DOZE and WAKING it is counted alone;
elsewhere it is not received (R87, R92, R99, R118 to R120; the record comes before the entry to TRAINING: log 11). -/
def Obligations.CrcErrorResynchronises : Prop :=
  ∀ (l : Link) (s : State),
    let e := s.linkEnd l
    let counted := s.setLink l { e with crcErrors := e.crcErrors + 1 }
    (s.rxPhase l = .deaf → exec (.crcError l) s = .next s) ∧
    (s.rxPhase l = .training ∨ s.rxPhase l = .doze ∨ s.rxPhase l = .waking →
      exec (.crcError l) s = .next counted) ∧
    (s.rxPhase l = .live → ∃ t,
      exec (.crcError l) s = .next t ∧ t.linkTraining l = true ∧
      (let u := recordFault .crcError (linkSource l) none none none none counted
       let x := t.linkEnd l
       x.crcErrors = e.crcErrors + 1 ∧ x.framesIn = e.framesIn ∧ x.framesDiscarded = e.framesDiscarded ∧
       x.creditPending = false ∧ x.syncAckDue = false ∧
       x.adoptedA = e.adoptedA ∧ x.adoptedB = e.adoptedB ∧ x.sentA = e.sentA ∧ x.sentB = e.sentB ∧
       (e.transmitting = none → x.transmitting = some (.sync (BitVec.ofNat 8 (u.freeA l)) (BitVec.ofNat 8 (u.freeB l))) ∧
         x.syncsSent = 1 ∧ x.resend = some (s.time + 100) ∧ x.consumedA = 0 ∧ x.consumedB = 0 ∧
         x.framesOut = e.framesOut + 1) ∧
       (e.transmitting ≠ none → x.transmitting = e.transmitting ∧ x.syncDue = true ∧ x.syncsSent = 0 ∧
         x.resend = none ∧ x.framesOut = e.framesOut) ∧
       t.faultLog = u.faultLog ∧ t.dropped = u.dropped ∧ t.generalQueue = u.generalQueue ∧ t.lines = u.lines) ∧
      t.ingress = s.ingress ∧ t.decoder = s.decoder ∧ t.holdLists = s.holdLists ∧ t.windows = s.windows ∧
      t.entries = s.entries ∧ t.sentOrder = s.sentOrder ∧ t.replyLane = s.replyLane ∧ t.laneLast = s.laneLast ∧
      (∀ p, (t.port p).queue = (s.port p).queue) ∧ t.time = s.time ∧ t.apertureBase = s.apertureBase)

/-- A valid SYNC: in TRAINING, DOZE_WAIT, DOZE and WAKING the link enters UP, the SYNC's capacities are adopted, the sent
counts and reported consumption become 0, and a SYNC-ACK becomes due; in UP the link stays UP with the same adoption (R89,
R90, R118, R119, R120). Two items are the model's: a SYNC held back is dropped at the entry to UP (log 6), and CREDIT pending
is not set there, the SYNC-ACK reporting the capacities anew (log 18). -/
def Obligations.SyncTrainsTheLink : Prop :=
  ∀ (a b : Byte) (s : State),
    let adopt := fun (e : LinkEnd) => { e with
      framesIn := e.framesIn + 1, adoptedA := a, adoptedB := b, sentA := 0, sentB := 0, reportedA := 0, reportedB := 0
      syncAckDue := true }
    let train := fun (e : LinkEnd) => { adopt e with syncsSent := 0, resend := none, syncDue := false }
    (a.toNat ≤ 64 →
      (s.rxPhase .trunk = .training → exec (.syncReceived .trunk 5 a b) s =
        .next (settle { s with trunkState := .up, trunk := train s.trunk })) ∧
      (s.rxPhase .trunk = .live → exec (.syncReceived .trunk 5 a b) s = .next { s with trunk := adopt s.trunk })) ∧
    ∀ p, let x := s.port p
      a.toNat ≤ 32 → b.toNat ≤ 32 → s.rxPhase (.branch p) ≠ .deaf →
      (x.state ≠ .up → exec (.syncReceived (.branch p) 5 a b) s = .next (refreshIdle p (s.setPort p { x with
        state := .up, answer := none, wake := none, dozeReqDue := false, wakeDue := false, link := train x.link }))) ∧
      (x.state = .up → exec (.syncReceived (.branch p) 5 a b) s = .next (s.setPort p { x with link := adopt x.link }))

/-- A valid SYNC-ACK: in TRAINING the link enters UP with the capacities adopted, the sent counts and reported consumption
0, and CREDIT pending set if a consumption count is not 0; in UP and DOZE_WAIT it is counted in frames in alone (R88,
R90, R101). That a SYNC held back is dropped at the entry to UP is the model's choice (log 6). -/
def Obligations.SyncAckCompletesTheTraining : Prop :=
  ∀ (a b : Byte) (s : State),
    let train := fun (e : LinkEnd) => { e with
      framesIn := e.framesIn + 1, adoptedA := a, adoptedB := b, sentA := 0, sentB := 0, reportedA := 0, reportedB := 0
      syncsSent := 0, resend := none, syncDue := false
      creditPending := e.creditPending || e.consumedA != 0 || e.consumedB != 0 }
    (a.toNat ≤ 64 → s.rxPhase .trunk = .training → exec (.syncAckReceived .trunk 5 a b) s =
      .next (settle { s with trunkState := .up, trunk := train s.trunk })) ∧
    (∀ p, let x := s.port p
      a.toNat ≤ 32 → b.toNat ≤ 32 → s.rxPhase (.branch p) = .training →
      exec (.syncAckReceived (.branch p) 5 a b) s = .next (refreshIdle p (s.setPort p { x with
        state := .up, answer := none, wake := none, dozeReqDue := false, wakeDue := false, link := train x.link }))) ∧
    (∀ l, s.rxPhase l = .live → s.frameMeets (.syncAckReceived l 5 a b) →
      exec (.syncAckReceived l 5 a b) s = .next (s.frameIn l))

/-- A CREDIT in UP or DOZE_WAIT that reports no more consumed than was sent sets the reported consumption of each send
class; the host's B is ignored (R94, R128). -/
def Obligations.CreditSetsTheReportedConsumption : Prop :=
  ∀ (a b : Byte) (s : State),
    (let e := s.trunk
     s.rxPhase .trunk = .live → (a - e.reportedA).toNat ≤ (e.sentA - e.reportedA).toNat →
      exec (.creditReceived .trunk 5 a b) s = .next { s with
        trunk := { e with framesIn := e.framesIn + 1, reportedA := a } }) ∧
    ∀ p, let x := s.port p
      s.rxPhase (.branch p) = .live →
      (a - x.link.reportedA).toNat ≤ (x.link.sentA - x.link.reportedA).toNat →
      (b - x.link.reportedB).toNat ≤ (x.link.sentB - x.link.reportedB).toNat →
      exec (.creditReceived (.branch p) 5 a b) s = .next (s.setPort p { x with
        link := { x.link with framesIn := x.link.framesIn + 1, reportedA := a, reportedB := b } })

/-- A RESET frame in UP: a router reset, the aperture at its strap default, the trunk ingress queue emptied, and the trunk
in TRAINING with a SYNC of A = 16 and B = 8, sent at once or after the frame in transmission; epochs, router time and the
adopted capacities are kept (R60, R64, R133, R176, R180). The model's choices in it: each branch receiver keeps its report
(log 9), the credit items of the branch link ends are 0 (log 10), and the flag holds the SYNC back (log 6). -/
def Obligations.TrunkResetResetsTheRouter : Prop :=
  ∀ s : State, s.rxPhase .trunk = .live →
    let e := { s.trunk with
      framesIn := 0, crcErrors := 0, framesDiscarded := 0, syncAckDue := false, creditPending := false
      retry := none }
    exec (.trunkReset 3) s = .next { s with
      windows := Vector.replicate 24 ⟨false, .pass, false, false, 0, 0, 0, 0⟩
      holdLists := Vector.replicate 24 []
      ingress := []
      decoder := ⟨none, .noClaim, none⟩
      entries := mapVec (fun x => ⟨x.epoch, none⟩) s.entries
      sentOrder := Vector.replicate 4 []
      replyLane := []
      generalQueue := []
      laneLast := .general
      arbLast := .eventUnit
      ports := mapVec (fun b => PortBlock.off b.link.signal) s.ports
      lines := Vector.replicate 33 ⟨false, 0, .idle, 0⟩
      lastLine := 32
      faultLog := []
      dropped := 0
      ticketLifetime := 50000
      headWaitLimit := 2000
      apertureBase := 0xFFFFFC0000 + s.strapId.setWidth 40 * 0x10000
      trunkState := .training
      trunk := if e.transmitting = none then { e with
          transmitting := some (.sync 16 8), framesOut := 1, consumedA := 0, consumedB := 0, syncDue := false
          syncsSent := 1, resend := some (s.time + 100) }
        else { e with framesOut := 0, syncsSent := 0, syncDue := true, resend := none } }

/-! ### Module frames -/

/-- A valid module WRITE in UP or DOZE_WAIT: with both buffer slots taken it overruns; with upstream write enable off, or
a host range that passes the 40-bit space, it is discarded with its record; these three are consumed. Otherwise it enters
the upstream-write buffer with its host address, and the port stops being idle (R93, R96, R113, R123). -/
def Obligations.ModuleWriteIsBufferedOrDiscarded : Prop :=
  ∀ (p : PortIdx) (n : Byte) (a : ModuleAddr) (data : List Byte) (s : State),
    let b := s.port p
    let e := { b.link with framesIn := b.link.framesIn + 1 }
    let consumed := { e with consumedA := e.consumedA + 1, creditPending := true }
    let go := exec (.moduleWriteArrival p (8 + n.toNat) n a data) s
    let refuse := fun (k : FaultKind) => Host.Outcome.next (recordFault k (.branch p) none none (some (a.setWidth 40))
      (some (.one (n.setWidth 16))) (s.setPort p { b with link := consumed }))
    s.rxPhase (.branch p) = .live → 1 ≤ n.toNat → n.toNat ≤ 64 → data.length = n.toNat →
    (2 ≤ b.buffer.length → go = .next (recordFault .creditOverrun (.branch p) none none (some (a.setWidth 40)) none
      (s.setPort p { b with link := { consumed with framesDiscarded := e.framesDiscarded + 1 } }))) ∧
    (b.buffer.length < 2 → b.upWriteEnable = false → go = refuse .upWriteBlocked) ∧
    (b.buffer.length < 2 → b.upWriteEnable = true → 0xFFFFFFFFFF < a.toNat + b.upOffset.toNat + n.toNat - 1 →
      go = refuse .upWriteRange) ∧
    (b.buffer.length < 2 → b.upWriteEnable = true → a.toNat + b.upOffset.toNat + n.toNat - 1 ≤ 0xFFFFFFFFFF →
      go = .next (settle (s.setPort p { b with
        link := e
        buffer := b.buffer ++ [⟨BitVec.ofNat 40 (a.toNat + b.upOffset.toNat), n.toNat, data⟩]
        idle := if b.state = .up then none else b.idle })))

/-- A RESULT whose branch ticket names an entry in SENT for the same port with the same epoch is relayed: OK with its data
where the data count is the entry's length, DAMAGED with no data and with RESULT_LENGTH for another count, DAMAGED with no
data for a status of 4 to 7, and else its status with no data. It is consumed, and the port may become idle (R69, R71, R93,
R113). -/
def Obligations.MatchedResultIsRelayed : Prop :=
  ∀ (p : PortIdx) (st : BitVec 3) (ticket n : Byte) (data : List Byte) (s : State) (i : EntryIdx) (v : Live) (r : Route),
    let b := s.port p
    let u := s.setPort p { b with link := { b.link with
      framesIn := b.link.framesIn + 1, consumedB := b.link.consumedB + 1, creditPending := true } }
    let go := exec (.branchResultArrival p (5 + n.toNat) st ticket n data) s
    s.rxPhase (.branch p) = .live → n.toNat ≤ 64 → data.length = n.toNat →
    (s.entry i).live = some v → v.stage = .sent r → r.port = p → ticket.toNat = 4 * i.val + (s.entry i).epoch.toNat →
    (st = 0 → n.toNat = v.length → go = .next (refreshIdle p (u.answered i v .ok data))) ∧
    (st = 0 → n.toNat ≠ v.length → go = .next (refreshIdle p (recordFault .resultLength .tickets v.window (some v.ticket)
      (some v.address) (some (.one (n.setWidth 16))) (u.answered i v .damaged [])))) ∧
    (st = 1 → go = .next (refreshIdle p (u.answered i v .unclaimed []))) ∧
    (st = 2 → go = .next (refreshIdle p (u.answered i v .refused []))) ∧
    (st = 3 → go = .next (refreshIdle p (u.answered i v .expired []))) ∧
    (4 ≤ st.toNat → go = .next (refreshIdle p (u.answered i v .damaged [])))

/-- A matched OK RESULT whose data count differs from the entry's length: the entry goes to REPLYING with DAMAGED and no
data, RESULT_LENGTH is recorded from TICKETS with the entry's window, ticket and upstream address and the data count
received, and the stale counter is as it was (R71). -/
def Obligations.WrongResultLengthIsDamaged : Prop :=
  ∀ (p : PortIdx) (ticket n : Byte) (data : List Byte) (s : State) (i : EntryIdx) (v : Live) (r : Route),
    let b := s.port p
    let u := s.setPort p { b with link := { b.link with
      framesIn := b.link.framesIn + 1, consumedB := b.link.consumedB + 1, creditPending := true } }
    s.rxPhase (.branch p) = .live → n.toNat ≤ 64 → data.length = n.toNat →
    (s.entry i).live = some v → v.stage = .sent r → r.port = p → ticket.toNat = 4 * i.val + (s.entry i).epoch.toNat →
    n.toNat ≠ v.length →
    ∃ t, exec (.branchResultArrival p (5 + n.toNat) 0 ticket n data) s = .next t ∧
      t = refreshIdle p (recordFault .resultLength .tickets v.window (some v.ticket) (some v.address)
        (some (.one (n.setWidth 16))) (u.answered i v .damaged [])) ∧
      (t.entry i).live = some { v with stage := .replying (some r) .damaged [] } ∧
      (t.port p).stale = b.stale ∧
      (s.faultLog.length < 16 → t.faultLog = s.faultLog ++ [{
        kind := .resultLength, source := .tickets, window := v.window, ticket := some v.ticket
        address := some v.address, count := some (.one (n.setWidth 16)), time := s.time }])

/-- A RESULT that matches no entry is discarded: the port's stale counter advances by one, STALE_RESULT is recorded with
the branch ticket as its count and no window, ticket or address, and no entry is disturbed (R70). -/
def Obligations.UnmatchedResultIsStale : Prop :=
  ∀ (p : PortIdx) (st : BitVec 3) (ticket n : Byte) (data : List Byte) (s : State),
    let b := s.port p
    s.rxPhase (.branch p) = .live → ticket.toNat ≤ 63 → n.toNat ≤ 64 → data.length = n.toNat →
    (∀ i v r, ticket.toNat = 4 * i.val + (s.entry i).epoch.toNat → (s.entry i).live = some v → v.stage = .sent r →
      r.port ≠ p) →
    ∃ t, exec (.branchResultArrival p (5 + n.toNat) st ticket n data) s = .next t ∧
      t = recordFault .staleResult (.branch p) none none none (some (.one (ticket.setWidth 16)))
        (s.setPort p { b with
          link := { b.link with
            framesIn := b.link.framesIn + 1, consumedB := b.link.consumedB + 1, creditPending := true }
          stale := b.stale + 1 }) ∧
      t.entries = s.entries ∧ t.replyLane = s.replyLane ∧ t.sentOrder = s.sentOrder ∧
      (t.port p).stale = b.stale + 1 ∧
      (s.faultLog.length < 16 → t.faultLog = s.faultLog ++ [{
        kind := .staleResult, source := .branch p, window := none, ticket := none, address := none
        count := some (.one (ticket.setWidth 16)), time := s.time }])

/-- An EVENT with code c on port p in UP or DOZE_WAIT is an arrival on line 8p + c, whatever the line's enable: IDLE goes
to PENDING and NOTIFIED to REPEAT, and the count adds one up to 255; a claim that appears is served (R125, R146, R147,
R148). -/
def Obligations.EventRaisesItsLine : Prop :=
  ∀ (p : PortIdx) (code : BitVec 3) (s : State) (i : LineIdx), s.rxPhase (.branch p) = .live →
    i.val = 8 * p.val + code.toNat →
    exec (.eventFrame p 3 code) s = .next (serveClaims ((s.frameIn (.branch p)).setLine i { s.line i with
      state := match (s.line i).state with
        | .idle => .pending
        | .pending => .pending
        | .notified => .again
        | .again => .again
      arrivals := if (s.line i).arrivals = 255 then 255 else (s.line i).arrivals + 1 }))

/-- A DOZE-ACK: in DOZE_WAIT the port enters DOZE, or WAKING with a WAKE due if its queue is not empty, and a SYNC-ACK that
is due is cancelled; in UP a WAKE becomes due. A module WAKE: in DOZE the port enters WAKING with none due; in UP and
DOZE_WAIT it is counted alone (R110, R116, R119, R120). Three items are the model's: CREDIT pending is kept (log 23), one
WAKE stands for two DOZE-ACKs in UP (log 34), and a frame in transmission runs on through the entry to DOZE (log 35). -/
def Obligations.DozeAckAndModuleWake : Prop :=
  ∀ (p : PortIdx) (s : State),
    let b := s.port p
    let e := { b.link with framesIn := b.link.framesIn + 1 }
    let waking := fun (started : Bool) => { b with
      link := { e with syncAckDue := false }, state := .waking, wake := some (s.time + b.wakeLimit.setWidth 32)
      answer := none, idle := none, dozeReqDue := false, wakeDue := started }
    s.rxPhase (.branch p) ≠ .deaf →
    (b.state = .dozeWait → b.queue = [] → exec (.dozeAck p 3) s = .next (s.setPort p { b with
      link := { e with syncAckDue := false }, state := .doze, answer := none, dozeReqDue := false })) ∧
    (b.state = .dozeWait → b.queue ≠ [] → exec (.dozeAck p 3) s = .next (s.setPort p (waking true))) ∧
    (b.state = .up → exec (.dozeAck p 3) s = .next (s.setPort p { b with link := e, wakeDue := true })) ∧
    (b.state = .doze → exec (.moduleWake p 3) s = .next (s.setPort p (waking false))) ∧
    (b.state = .up ∨ b.state = .dozeWait → exec (.moduleWake p 3) s = .next (s.setPort p { b with link := e }))

/-! ### Deadlines and link failures -/

/-- A ticket entry's deadline: in SENT the READ is left at the module; in QUEUED it leaves its port's queue and the slot
is granted; in HELD it leaves its hold list and the next head is examined. In each the entry is answered EXPIRED with a
record from TICKETS. In REPLYING nothing happens (R36, R72, R113). -/
def Obligations.TicketDeadlineExpiresTheRead : Prop :=
  ∀ (i : EntryIdx) (s : State) (v : Live), s.porN = true → (s.entry i).live = some v → s.reached (some v.deadline) = true →
    let expired := fun (u : State) => recordFault .expired .tickets v.window (some v.ticket) (some v.address) none
      (u.answered i v .expired [])
    (∀ r, v.stage = .sent r → exec (.ticketDeadline i) s = .next (settle (refreshIdle r.port (expired s)))) ∧
    (∀ r, v.stage = .queued r → exec (.ticketDeadline i) s = .next (settle (refreshIdle r.port (grantWindows r.port
      (expired (s.setPort r.port { s.port r.port with
        queue := (s.port r.port).queue.filter fun q => q.body ≠ .read i })))))) ∧
    (∀ w, v.stage = .held → v.window = some w → exec (.ticketDeadline i) s =
      .next (settle (grantWindows (s.window w).portIdx (examineHeads w
        (expired (s.setHoldList w ((s.holdList w).filter fun h => h.body ≠ .read i))))))) ∧
    (∀ r st data, v.stage = .replying r st data → exec (.ticketDeadline i) s = .next s)

/-- The head wait deadline: the head is discarded with HEAD_STALL and its credit returned, and the next frame becomes head
and is examined (R41, R55, R58). -/
def Obligations.HeadWaitDeadlineDiscardsTheHead : Prop :=
  ∀ (s : State) (f : HostFrame) (rest : List HostFrame), s.porN = true → s.ingress = f :: rest →
    s.reached s.decoder.deadline = true →
    let u := recordFault .headStall .decoder s.decoder.lastWindow f.body.ticket (some f.address) none { s with
      ingress := rest
      decoder := ⟨none, .noClaim, none⟩
      trunk := { s.trunk with
        consumedA := if f.body.isRead then s.trunk.consumedA else s.trunk.consumedA + 1
        consumedB := if f.body.isRead then s.trunk.consumedB + 1 else s.trunk.consumedB
        creditPending := s.trunk.creditPending || s.trunkState == .up } }
    exec .headWaitDeadline s = .next (decodeRun true u) ∧ (rest = [] → exec .headWaitDeadline s = .next u)

/-- The answer deadline in DOZE_WAIT returns the port to UP with DOZE_NO_ANSWER, its idle deadline set anew if it is idle;
the idle deadline in UP takes the port to DOZE_WAIT with a DOZE-REQ due (R110, R113, R115, R117). -/
def Obligations.AnswerAndIdleDeadlines : Prop :=
  ∀ (p : PortIdx) (s : State), let b := s.port p
    s.porN = true →
    (b.state = .dozeWait → s.reached b.answer = true → exec (.answerDeadline p) s =
      .next (refreshIdle p (recordFault .dozeNoAnswer (.branch p) none none none none (s.setPort p { b with
        state := .up, answer := none, dozeReqDue := false, dozeRequested := false })))) ∧
    (b.state = .up → s.reached b.idle = true → exec (.idleDeadline p) s = .next (s.setPort p { b with
      state := .dozeWait, idle := none, dozeRequested := false, dozeReqDue := true, wakeDue := false }))

/-- Signal loss in TRAINING, UP or a doze state, the resend deadline after 32 SYNCs and the wake deadline take a port to
DOWN with their record, its flush, and a retry deadline 10,000 microseconds on; then the decoder examines its head. Signal
loss in OFF or DOWN sets the report alone (R91, R92, R100, R112, R121, R122, R190). -/
def Obligations.BranchFailuresEnterDown : Prop :=
  ∀ (p : PortIdx) (s : State), let b := s.port p
    s.porN = true →
    let down := fun (k : FaultKind) (u : State) =>
      let x := portDown .down (some k) p u
      Host.Outcome.next (settle (x.setPort p { x.port p with
        link := { (x.port p).link with retry := some (x.time + 10000) } }))
    let gone := s.setPort p { b with link := { b.link with signal := false } }
    (b.link.signal = true → b.state ≠ .off → b.state ≠ .down → exec (.signalLost (.branch p)) s = down .signalLost gone) ∧
    (b.link.signal = true → b.state = .off ∨ b.state = .down → exec (.signalLost (.branch p)) s = .next gone) ∧
    (b.state = .training → s.reached b.link.resend = true → 32 ≤ b.link.syncsSent →
      exec (.resendDeadline (.branch p)) s = down .trainingFail s) ∧
    (b.state = .waking → s.reached b.wake = true → exec (.wakeDeadline p) s = down .wakeFail s)

/-- A port that enters DOWN or OFF: the record of the cause, then FLUSH with the READs answered and the WRITEs dropped if
there are any. Its SENT entries in their order and then its queued READs are answered UNCLAIMED, its queue and buffer are
empty, its deadlines and due frames are gone and its transmission is cut. Then, window by window in index order, every request
that a draining window naming the port holds ends in list order with its own record: CROSSING or NOT_PERMITTED where its
check fails, a READ answered REFUSED, and otherwise PORT_UNAVAILABLE, a READ answered UNCLAIMED; WRITEs are discarded. The log
takes these records in this order while it has room and counts the others as dropped. Every other hold list, every other
entry and every other port is as it was (R28, R29, R35, R68, R75, R78, R103, R105, R111, R112, R160, R161). That entry to DOWN
cuts the transmission, which R105 says of OFF alone, is the model's reading (log 8), and so are SYNCs sent 0 (log 32) and
the containment of a request under two windows (log 37). -/
def Obligations.FlushEndsThePortsTraffic : Prop :=
  ∀ (st : PortState) (cause : Option FaultKind) (p : PortIdx) (s : State),
    s.placed → s.admitted → (s.port p).state ≠ .off → (s.port p).state ≠ .down → st = .off ∨ st = .down →
    let b := s.port p
    let reads := s.sentOf p ++ queuedReads b.queue
    let writes := (b.queue.filter fun q => !q.body.isRead).length + b.buffer.length
    let drains := fun (w : WindowIdx) => s.windowState w = .drain ∧ (s.window w).portIdx = p
    let ending := fun (w : WindowIdx) (h : Held) => (s.releaseFailure w h).getD (.portUnavailable, .unclaimed)
    let ended := fun (w : WindowIdx) => if drains w then s.holdList w else []
    let records : List FaultRecord :=
      (cause.map fun k => ⟨k, .branch p, none, none, none, none, s.time⟩).toList
      ++ (if reads.length + writes = 0 then [] else
          [⟨.flush, .branch p, none, none, none,
            some (.pair (BitVec.ofNat 8 reads.length) (BitVec.ofNat 8 writes)), s.time⟩])
      ++ (List.finRange 24).flatMap fun w => (ended w).map fun h =>
          ⟨(ending w h).1, .decoder, some w, (match h.body with
            | .read i => s.ticketOf i
            | .write _ => none), some h.address, none, s.time⟩
    let room := 16 - s.faultLog.length
    let u := portDown st cause p s
    u.port p = { b with
      state := st, queue := [], buffer := [], dozeRequested := false, answer := none, wake := none, idle := none
      dozeReqDue := false, wakeDue := false
      link := { b.link with
        syncsSent := 0, resend := none, retry := none, creditPending := false, syncAckDue := false, syncDue := false
        transmitting := none } } ∧
    (∀ q, q ≠ p → u.port q = s.port q) ∧
    u.faultLog = s.faultLog ++ records.take room ∧
    u.dropped.toNat = min 65535 (s.dropped.toNat + (records.length - room)) ∧
    u.replyLane = s.replyLane ++ reads ++ ((List.finRange 24).flatMap fun w => heldReads (ended w)) ∧
    (∀ w, u.holdList w = if drains w then [] else s.holdList w) ∧
    (∀ i v, (s.entry i).live = some v → (s.entry i).worksFor p = true →
      u.entry i = ⟨(s.entry i).epoch, some { v with stage := .replying v.stage.route .unclaimed [] }⟩) ∧
    (∀ w h i v, h ∈ ended w → h.body = .read i → (s.entry i).live = some v →
      u.entry i = ⟨(s.entry i).epoch, some { v with stage := .replying none (ending w h).2 [] }⟩) ∧
    (∀ i, (∀ w, i ∉ heldReads (ended w)) → (s.entry i).worksFor p = false → u.entry i = s.entry i) ∧
    u.sentOf p = [] ∧ (∀ q, q ≠ p → u.sentOf q = s.sentOf q) ∧ u.windows = s.windows ∧ u.ingress = s.ingress ∧
    u.decoder = s.decoder ∧ u.trunk = s.trunk ∧ u.trunkState = s.trunkState ∧ u.time = s.time

/-- Trunk loss, by signal loss or by 32 SYNCs unanswered: the trunk is in DOWN with its retry deadline 10,000 microseconds
on, the trunk ingress queue, the reply lane and the general queue are empty, and every live entry is freed with its epoch
kept. READs are gone from hold lists and branch egress queues. The WRITEs of each branch egress queue stay in order at its
front; behind them, window by window in index order, stand the held WRITEs that draining windows release into the freed
slots, translated, in list order. A draining list loses only a front part, its other WRITEs stay in order, and a window in
another state keeps all of them; a head behind a release that fails its check ends with its record, and no head that passes
is left while its port has a free slot. Each port keeps its control fields, counters, buffer and last result. NOTIFIED and
REPEAT lines are PENDING. The records of failed releases, port by port and window by window, and after them the cause with the
count of entries freed, are taken by the log or counted as dropped. What R131 keeps is kept; signal loss in DOWN sets the
report alone (R27, R30, R34, R37, R79, R100, R103, R113, R130, R131, R157, R161). The model's choices in it: that a head which
the loss itself brings up is not examined at this happening and that failed releases behind a release come before the cause
(log 16), SYNCs sent 0 (log 32), no SYNC held back (log 6), a port left idle that enters DOZE_WAIT (log 33), and the
containment of a request under two windows (log 37). -/
def Obligations.TrunkLossFreesEverything : Prop :=
  ∀ s : State, s.porN = true →
    let gone := { s with trunk := { s.trunk with signal := false } }
    let writes := fun (w : WindowIdx) => (s.holdList w).filter fun h => !h.body.isRead
    let translated := fun (w : WindowIdx) (h : Held) =>
      (⟨BitVec.ofNat 32 (h.address.toNat - (s.window w).base.toNat + (s.window w).target.toNat), h.length, h.body⟩ : Queued)
    let lost := fun (k : FaultKind) (g : State) (t : State) =>
      t.trunkState = .down ∧ t.trunk = { g.trunk with
        syncsSent := 0, resend := none, retry := some (s.time + 10000), creditPending := false, syncAckDue := false
        syncDue := false, transmitting := none } ∧
      t.ingress = [] ∧ t.decoder = ⟨none, .noClaim, none⟩ ∧ t.replyLane = [] ∧ t.generalQueue = [] ∧
      (∀ i, t.entry i = ⟨(s.entry i).epoch, none⟩) ∧ (∀ p, t.sentOf p = []) ∧
      (∃ left : WindowIdx → List Held,
        let onPort := fun (p : PortIdx) (w : WindowIdx) => if (s.window w).portIdx = p then left w else []
        let placed := fun (p : PortIdx) => (List.finRange 24).flatMap fun w =>
          ((onPort p w).filter fun h => (s.releaseFailure w h).isNone).map (translated w)
        let records : List FaultRecord :=
          ((List.finRange 4).flatMap fun p => (List.finRange 24).flatMap fun w => (onPort p w).filterMap fun h =>
            (s.releaseFailure w h).map fun x => ⟨x.1, .decoder, some w, none, some h.address, none, s.time⟩)
          ++ [⟨k, .trunk, none, none, none,
            some (.one (BitVec.ofNat 16 (s.entries.toList.filter fun e => e.live.isSome).length)), s.time⟩]
        let room := 16 - s.faultLog.length
        (∀ w, writes w = left w ++ t.holdList w) ∧
        (∀ w, s.windowState w ≠ .drain → left w = []) ∧
        (∀ w h, (left w).head? = some h → s.releaseFailure w h = none) ∧
        (∀ w h, left w ≠ [] → (t.holdList w).head? = some h → s.releaseFailure w h = none) ∧
        (∀ w h, s.windowState w = .drain → (t.holdList w).head? = some h → s.releaseFailure w h = none →
          t.egressFree (s.window w).portIdx = false) ∧
        (∀ x w h, x < w → (s.window x).portIdx = (s.window w).portIdx → left w ≠ [] → s.windowState x = .drain →
          (t.holdList x).head? = some h → s.releaseFailure x h ≠ none) ∧
        (∀ p, placed p ≠ [] → (s.port p).state.accepts = true ∧ (t.port p).queue.length ≤ 8) ∧
        (∀ p, t.port p = (s.port p).afterLoss (placed p) s.time) ∧
        t.faultLog = s.faultLog ++ records.take room ∧
        t.dropped.toNat = min 65535 (s.dropped.toNat + (records.length - room))) ∧
      (∀ i, i ≠ 32 → t.line i = { s.line i with
        state := match (s.line i).state with
          | .idle => .idle
          | .pending => .pending
          | .notified => .pending
          | .again => .pending }) ∧
      (t.line 32).state = .pending ∧
      t.windows = s.windows ∧ t.apertureBase = s.apertureBase ∧ t.ticketLifetime = s.ticketLifetime ∧
      t.headWaitLimit = s.headWaitLimit ∧ t.laneLast = s.laneLast ∧ t.arbLast = s.arbLast ∧ t.lastLine = s.lastLine ∧
      t.time = s.time
    (s.trunk.signal = true → s.trunkState ≠ .down →
      ∃ t, exec (.signalLost .trunk) s = .next t ∧ lost .signalLost gone t) ∧
    (s.trunk.signal = true → s.trunkState = .down → exec (.signalLost .trunk) s = .next gone) ∧
    (s.trunkState = .training → s.reached s.trunk.resend = true → 32 ≤ s.trunk.syncsSent →
      ∃ t, exec (.resendDeadline .trunk) s = .next t ∧ lost .trainingFail s t)

/-! ### The request decoder -/

/-- A host frame with good fields that arrives behind a head joins the tail of the trunk ingress queue; one that finds no
free slot of its class, 16 WRITEs or 8 READs, is discarded, counted and consumed with CREDIT_OVERRUN (R41, R96, R126). -/
def Obligations.HostFramesQueueBehindTheHead : Prop :=
  ∀ (s : State) (a : HostAddr), s.rxPhase .trunk = .live → s.ingress ≠ [] →
    let e := { s.trunk with framesIn := s.trunk.framesIn + 1 }
    let overrun := { e with framesDiscarded := e.framesDiscarded + 1, creditPending := true }
    (∀ (t : BitVec 6) (n : Nat), 1 ≤ n → n ≤ 64 →
      (s.ingressCount true < 8 → exec (.trunkIngressFrame (hostRead t n a)) s =
        .next { s with trunk := e, ingress := s.ingress ++ [⟨a, n, .read t⟩] }) ∧
      (8 ≤ s.ingressCount true → exec (.trunkIngressFrame (hostRead t n a)) s =
        .next (recordFault .creditOverrun .trunk none (some t) (some a) none
          { s with trunk := { overrun with consumedB := e.consumedB + 1 } }))) ∧
    (∀ data : List Byte, 1 ≤ data.length → data.length ≤ 64 →
      (s.ingressCount false < 16 → exec (.trunkIngressFrame (hostWriteFrame a data)) s =
        .next { s with trunk := e, ingress := s.ingress ++ [⟨a, data.length, .write data⟩] }) ∧
      (16 ≤ s.ingressCount false → exec (.trunkIngressFrame (hostWriteFrame a data)) s =
        .next (recordFault .creditOverrun .trunk none none (some a) none
          { s with trunk := { overrun with consumedA := e.consumedA + 1 } })))

/-- At a free decoder a READ whose ticket is live is discarded with TICKET_REUSE before every other check. A request
outside the aperture that fails a check, the checks in their order: a READ takes the lowest-numbered FREE entry, whose
epoch advances, in REPLYING with the answer that the check gives; a WRITE is discarded. Each has the record of its check
and its credit returned (R12 to R15, R43, R45, R46, R54, R55, R63, R65). -/
def Obligations.FailedDecodesAreAnsweredOrDiscarded : Prop :=
  ∀ (s : State) (a : HostAddr) (m : Option WindowIdx) (k : FaultKind) (st : Status), s.hostReady →
    (∀ (t : BitVec 6) (n : Nat) (i : EntryIdx), 1 ≤ n → n ≤ 64 → s.ticketOf i = some t →
      exec (.trunkIngressFrame (hostRead t n a)) s =
        .next (recordFault .ticketReuse .decoder none (some t) (some a) none s.readTaken)) ∧
    (a.toNat < s.apertureBase.toNat ∨ s.apertureBase.toNat + 0xFFFF < a.toNat → s.matchedBy a m →
    (∀ (t : BitVec 6) (n : Nat) (i : EntryIdx), 1 ≤ n → n ≤ 64 → s.decodeFault true a n m = some (k, st) →
      (∀ j, s.ticketOf j ≠ some t) → (s.entry i).live = none → (∀ j, j < i → (s.entry j).live ≠ none) →
      exec (.trunkIngressFrame (hostRead t n a)) s = .next (recordFault k .decoder m (some t) (some a) none
        { s.readTaken.setEntry i ⟨(s.entry i).epoch + 1, some {
            ticket := t, window := m, address := a, length := n, deadline := s.time + s.ticketLifetime
            stage := .replying none st [] }⟩ with
          replyLane := s.replyLane ++ [i] })) ∧
    (∀ data : List Byte, 1 ≤ data.length → data.length ≤ 64 → s.decodeFault false a data.length m = some (k, st) →
      exec (.trunkIngressFrame (hostWriteFrame a data)) s =
        .next (recordFault k .decoder m none (some a) none s.writeTaken)))

/-- At a free decoder a request that passes its checks, for a window in HOLD or DRAIN, with a free hold slot: it is
appended, untranslated, at the tail of the window's hold list, and a READ takes the lowest-numbered FREE entry in HELD
(R15, R25, R47, R54, R63). -/
def Obligations.HeldRequestsJoinTheirList : Prop :=
  ∀ (s : State) (a : HostAddr) (w : WindowIdx), s.hostReady →
    a.toNat < s.apertureBase.toNat ∨ s.apertureBase.toNat + 0xFFFF < a.toNat → s.matchedBy a (some w) →
    (s.window w).mode = .hold ∨ s.holdList w ≠ [] → s.heldTotal < 16 →
    (∀ (t : BitVec 6) (n : Nat) (i : EntryIdx), 1 ≤ n → n ≤ 64 → s.decodeFault true a n (some w) = none →
      (∀ j, s.ticketOf j ≠ some t) → (s.entry i).live = none → (∀ j, j < i → (s.entry j).live ≠ none) →
      exec (.trunkIngressFrame (hostRead t n a)) s = .next ((s.readTaken.setEntry i ⟨(s.entry i).epoch + 1, some {
            ticket := t, window := some w, address := a, length := n, deadline := s.time + s.ticketLifetime
            stage := .held }⟩).setHoldList w (s.holdList w ++ [⟨a, n, .read i⟩]))) ∧
    (∀ data : List Byte, 1 ≤ data.length → data.length ≤ 64 → s.decodeFault false a data.length (some w) = none →
      exec (.trunkIngressFrame (hostWriteFrame a data)) s =
        .next (s.writeTaken.setHoldList w (s.holdList w ++ [⟨a, data.length, .write data⟩])))

/-- At a free decoder a request that passes its checks, for a window in PASS whose port has a free slot: it is placed at
the tail of the port's queue at its upstream address less the base plus the target base, a READ with the lowest-numbered
FREE entry in QUEUED; the port stops being idle or starts to wake (R15, R16, R47, R51, R54, R63, R113, R119). -/
def Obligations.PassedRequestsJoinTheEgressQueue : Prop :=
  ∀ (s : State) (a : HostAddr) (w : WindowIdx) (p : PortIdx), s.hostReady →
    a.toNat < s.apertureBase.toNat ∨ s.apertureBase.toNat + 0xFFFF < a.toNat → s.matchedBy a (some w) →
    (s.window w).mode = .pass → s.holdList w = [] → (s.window w).port.toNat = p.val → (s.port p).queue.length < 8 →
    let d : ModuleAddr := BitVec.ofNat 32 (a.toNat - (s.window w).base.toNat + (s.window w).target.toNat)
    (∀ (t : BitVec 6) (n : Nat) (i : EntryIdx), 1 ≤ n → n ≤ 64 → s.decodeFault true a n (some w) = none →
      (∀ j, s.ticketOf j ≠ some t) → (s.entry i).live = none → (∀ j, j < i → (s.entry j).live ≠ none) →
      exec (.trunkIngressFrame (hostRead t n a)) s = .next ((s.readTaken.setEntry i ⟨(s.entry i).epoch + 1, some {
            ticket := t, window := some w, address := a, length := n, deadline := s.time + s.ticketLifetime
            stage := .queued ⟨p, d⟩ }⟩).setPort p ((s.port p).withRequest ⟨d, n, .read i⟩ s.time))) ∧
    (∀ data : List Byte, 1 ≤ data.length → data.length ≤ 64 → s.decodeFault false a data.length (some w) = none →
      exec (.trunkIngressFrame (hostWriteFrame a data)) s =
        .next (s.writeTaken.setPort p ((s.port p).withRequest ⟨d, data.length, .write data⟩ s.time)))

/-- At a free decoder with a free slot of the general queue, a READ in the aperture is answered at once: OK with the bytes
of the record as it stands, or REFUSED and MGMT_FORM where its form is bad; it takes no entry, and the decoder is the last
served claimant (R44, R52, R56, R141, R142, R173, R174; the RESULT is placed before the record's NOTICE: log 13). -/
def Obligations.ManagementReadIsAnswered : Prop :=
  ∀ (s : State) (t : BitVec 6) (n off : Nat), s.hostReady → s.generalQueue.length < 8 → 1 ≤ n → n ≤ 64 → off < 0x10000 →
    (∀ j, s.ticketOf j ≠ some t) →
    let a := s.apertureBase + BitVec.ofNat 40 off
    let go := exec (.trunkIngressFrame (hostRead t n a)) s
    (∀ r : RecordId, off % 4 = 0 → n % 4 = 0 → r.offset ≤ off → off + n ≤ r.offset + r.size →
      go = .next { s.readTaken with
        arbLast := .decoder
        generalQueue := s.generalQueue ++
          [.result t .ok (((recordBytes s.readTaken r).drop (off - r.offset)).take n)] }) ∧
    ((off % 4 ≠ 0 ∨ n % 4 ≠ 0 ∨ ∀ r : RecordId, off < r.offset ∨ r.offset + r.size < off + n) →
      go = .next (recordFault .mgmtForm .management (windowAt off) (some t) (some a) none { s.readTaken with
        arbLast := .decoder, generalQueue := s.generalQueue ++ [.result t .refused []] }))

/-- At a free decoder a frame that lacks a resource stays at the head: a management READ without a slot of the general
queue, a READ without a FREE entry, a READ or WRITE for a hold list without a hold slot, and one for a full egress queue. It
keeps the matching window, claims the shared slot that is its last need, and has a head wait deadline unless the limit is
0. A head that waits is examined again at the end of a happening (`settle`): it stays while it still lacks a resource, and
once it lacks none it is taken: it leaves the trunk ingress queue, its credit is returned, its effect is that of its checks
as they now stand, and the next frame becomes head and is examined (R26, R40 to R42, R49 to R53, R55, R57, R58). That the
frames behind a granted management READ act before a further slot is granted is the model's choice (log 38). -/
def Obligations.HeadWaitsForItsResources : Prop :=
  (∀ (s : State) (n : Nat) (a : HostAddr) (m : Option WindowIdx), s.hostReady → 1 ≤ n → n ≤ 64 →
    let outside : Prop := a.toNat < s.apertureBase.toNat ∨ s.apertureBase.toNat + 0xFFFF < a.toNat
    let wait := fun (b : HostBody) (c : Claim) (x : Option WindowIdx) => Host.Outcome.next (s.headArrived ⟨a, n, b⟩ c x)
    let noSlot := fun (w : WindowIdx) => ((s.window w).mode = .hold ∨ s.holdList w ≠ []) ∧ 16 ≤ s.heldTotal
    let fullQueue := fun (w : WindowIdx) (p : PortIdx) => (s.window w).mode = .pass ∧ s.holdList w = [] ∧
      (s.window w).port.toNat = p.val ∧ 8 ≤ (s.port p).queue.length
    (∀ t : BitVec 6, (∀ j, s.ticketOf j ≠ some t) →
      let go := exec (.trunkIngressFrame (hostRead t n a)) s
      (¬outside → 8 ≤ s.generalQueue.length → go = wait (.read t) .general none) ∧
      (outside → s.matchedBy a m → (∀ i, (s.entry i).live ≠ none) → go = wait (.read t) .noClaim m) ∧
      (∀ w i, m = some w → outside → s.matchedBy a m → s.decodeFault true a n m = none → (s.entry i).live = none →
        (noSlot w → go = wait (.read t) .noClaim m) ∧
        (∀ p, fullQueue w p → go = wait (.read t) (.egress p) m))) ∧
    (∀ data : List Byte, data.length = n →
      let go := exec (.trunkIngressFrame (hostWriteFrame a data)) s
      ∀ w, m = some w → outside → s.matchedBy a m → s.decodeFault false a n m = none →
        (noSlot w → go = wait (.write data) .noClaim m) ∧
        (∀ p, fullQueue w p → go = wait (.write data) (.egress p) m))) ∧
  (∀ (s : State) (n : Nat) (a : HostAddr) (b : HostBody) (rest : List HostFrame), s.admitted →
    s.ingress = ⟨a, n, b⟩ :: rest → 1 ≤ n →
    let outside : Prop := a.toNat < s.apertureBase.toNat ∨ s.apertureBase.toNat + 0xFFFF < a.toNat
    let u := s.headTaken b.isRead
    let live := fun (t : BitVec 6) (m : Option WindowIdx) (st : Stage) => some (⟨t, m, a, n, s.time + s.ticketLifetime, st⟩ : Live)
    (s.headWaits → settle s = s) ∧
    (∀ m, outside → s.matchedBy a m →
      (∀ t i, b = .read t → (∀ j, s.ticketOf j ≠ some t) → (s.entry i).live = none → (∀ j, j < i → (s.entry j).live ≠ none) →
        let e := fun (st : Stage) => u.setEntry i ⟨(s.entry i).epoch + 1, live t m st⟩
        (∀ k st, s.decodeFault true a n m = some (k, st) → settle s = decodeRun true (recordFault k .decoder m (some t)
          (some a) none { e (.replying none st []) with replyLane := s.replyLane ++ [i] })) ∧
        (∀ w, m = some w → s.decodeFault true a n m = none →
          ((s.window w).mode = .hold ∨ s.holdList w ≠ [] → s.heldTotal < 16 →
            settle s = decodeRun true ((e .held).setHoldList w (s.holdList w ++ [⟨a, n, .read i⟩]))) ∧
          (∀ p, (s.window w).mode = .pass → s.holdList w = [] → (s.window w).port.toNat = p.val →
            (s.port p).queue.length < 8 →
            let d : ModuleAddr := BitVec.ofNat 32 (a.toNat - (s.window w).base.toNat + (s.window w).target.toNat)
            settle s = decodeRun true ((e (.queued ⟨p, d⟩)).setPort p ((s.port p).withRequest ⟨d, n, .read i⟩ s.time))))) ∧
      (∀ data, b = .write data →
        (∀ k st, s.decodeFault false a n m = some (k, st) →
          settle s = decodeRun true (recordFault k .decoder m none (some a) none u)) ∧
        (∀ w, m = some w → s.decodeFault false a n m = none →
          ((s.window w).mode = .hold ∨ s.holdList w ≠ [] → s.heldTotal < 16 →
            settle s = decodeRun true (u.setHoldList w (s.holdList w ++ [⟨a, n, .write data⟩]))) ∧
          (∀ p, (s.window w).mode = .pass → s.holdList w = [] → (s.window w).port.toNat = p.val →
            (s.port p).queue.length < 8 →
            let d : ModuleAddr := BitVec.ofNat 32 (a.toNat - (s.window w).base.toNat + (s.window w).target.toNat)
            settle s = decodeRun true (u.setPort p ((s.port p).withRequest ⟨d, n, .write data⟩ s.time)))))) ∧
    (∀ data, ¬outside → b = .write data → settle s = decodeRun true (manageWrite a data u))) ∧
  (∀ (s : State) (n : Nat) (a : HostAddr) (t : BitVec 6) (rest : List HostFrame) (r : RecordId),
    s.ingress = ⟨a, n, .read t⟩ :: rest → s.decoder.claim = .general → s.trunkState = .up → s.generalQueue.length < 8 →
    (∀ c, c ≠ .decoder → s.claims c = false) → (∀ j, s.ticketOf j ≠ some t) →
    let off := a.toNat - s.apertureBase.toNat
    s.apertureBase.toNat ≤ a.toNat → off < 0x10000 → 1 ≤ n → off % 4 = 0 → n % 4 = 0 → r.offset ≤ off →
    off + n ≤ r.offset + r.size →
    let u := s.headTaken true
    settle s = decodeRun true { u with
      arbLast := .decoder
      generalQueue := s.generalQueue ++ [.result t .ok (((recordBytes u r).drop (off - r.offset)).take n)] })

/-! ### Arbitration and release -/

/-- A free slot of the general queue goes to the first present claimant after the last served one, in the order decoder,
branch 0 to 3, event unit: the distance below counts the turns after the last served claimant. A branch places its oldest
WRITE, which is consumed; the event unit a NOTICE of the first eligible line after the last served line; at the decoder's
turn the arbiter leaves the slot to it, and it takes its management READ at the end of the happening. After each grant the
next slot is granted in the same way, and no grant is made while the queue is full, the trunk is not in UP, or nobody
claims (R140 to R142, R149, R150). That the frames behind that READ act before the next grant is the model's choice
(log 38). -/
def Obligations.AdmissionIsCyclic : Prop :=
  let rank : Claimant → Nat := fun c => match c with
    | .decoder => 0
    | .branch p => 1 + p.val
    | .eventUnit => 5
  ∀ s : State,
    let turn := fun (c : Claimant) => (rank c + 5 - rank s.arbLast) % 6
    let first := fun (c : Claimant) => s.claims c = true ∧ ∀ d, s.claims d = true → turn c ≤ turn d
    (s.trunkState ≠ .up ∨ 8 ≤ s.generalQueue.length ∨ (∀ c, s.claims c = false) → serveClaims s = s) ∧
    (s.trunkState = .up → s.generalQueue.length < 8 →
    (∀ p w rest, (s.port p).buffer = w :: rest → first (.branch p) →
      serveClaims s = serveClaims (refreshIdle p (({ s with
        generalQueue := s.generalQueue ++ [.write w], arbLast := .branch p } : State).setPort p { s.port p with
          buffer := rest
          link := { (s.port p).link with
            consumedA := (s.port p).link.consumedA + 1
            creditPending := (s.port p).link.creditPending || s.linkLive (.branch p) } }))) ∧
    (∀ i, (s.line i).enable = true → (s.line i).state = .pending →
      (∀ j, (s.line j).enable = true → (s.line j).state = .pending →
        (i.val + 32 - s.lastLine.val) % 33 ≤ (j.val + 32 - s.lastLine.val) % 33) →
      first .eventUnit →
      serveClaims s = serveClaims { s.setLine i { s.line i with state := .notified } with
        generalQueue := s.generalQueue ++ [.notice (s.line i).vector], arbLast := .eventUnit, lastLine := i }) ∧
    (first .decoder → serveClaims s = s ∧
      ∀ (n : Nat) (a : HostAddr) (t : BitVec 6) (rest : List HostFrame) (r : RecordId),
        s.ingress = ⟨a, n, .read t⟩ :: rest → (∀ j, s.ticketOf j ≠ some t) →
        let off := a.toNat - s.apertureBase.toNat
        s.apertureBase.toNat ≤ a.toNat → off < 0x10000 → 1 ≤ n → off % 4 = 0 → n % 4 = 0 → r.offset ≤ off →
        off + n ≤ r.offset + r.size →
        let u := s.headTaken true
        settle s = decodeRun true { u with
          arbLast := .decoder
          generalQueue := s.generalQueue ++ [.result t .ok (((recordBytes u r).drop (off - r.offset)).take n)] }))

/-- A free slot of a port's queue goes to the lowest-numbered draining window of the port: its head leaves the list, is
translated by the record as it stands and placed, a READ's entry going to QUEUED, the next head is examined, and the next
free slot is granted in the same way; with no free slot or no window that claims, none is granted. A head that
passes its examination stays. One that fails leaves its list with the record of its check, from DECODER with window, upstream
address and a READ's ticket: outside the range CROSSING, without the permit NOT_PERMITTED, and for a port in OFF or DOWN
PORT_UNAVAILABLE; a READ is answered REFUSED, or UNCLAIMED for the port, a WRITE is discarded, and the next head is examined
(R16, R17, R27 to R30, R34). That a request inside its own window passes containment also where a lower-numbered window
contains its first byte is the model's choice (log 37). -/
def Obligations.SlotsGoToTheLowestDrainingWindow : Prop :=
  (∀ (s : State) (p : PortIdx) (w : WindowIdx) (h : Held) (rest : List Held),
    let r := s.window w
    let d : ModuleAddr := BitVec.ofNat 32 (h.address.toNat - r.base.toNat + r.target.toNat)
    (s.port p).state.accepts = true → (s.port p).queue.length < 8 → r.port.toNat = p.val → s.windowState w = .drain →
    s.holdList w = h :: rest → r.base.toNat ≤ h.address.toNat → h.address.toNat + h.length - 1 ≤ r.limit.toNat →
    1 ≤ h.length → (if h.body.isRead then r.readPermit else r.writePermit) = true →
    (∀ x, x < w → s.windowClaims p x = false) →
    let place := fun (u : State) => (u.setHoldList w rest).setPort p ((s.port p).withRequest ⟨d, h.length, h.body⟩ s.time)
    (∀ data, h.body = .write data → grantWindows p s = grantWindows p (examineHeads w (place s))) ∧
    (∀ i v, h.body = .read i → (s.entry i).live = some v → grantWindows p s = grantWindows p (examineHeads w (place
      (s.setEntry i ⟨(s.entry i).epoch, some { v with stage := .queued ⟨p, d⟩ }⟩))))) ∧
  (∀ (s : State) (p : PortIdx), (s.port p).state.accepts = false ∨ 8 ≤ (s.port p).queue.length ∨
    (∀ w, s.windowClaims p w = false) → grantWindows p s = s) ∧
  (∀ (s : State) (w : WindowIdx),
    (s.windowState w ≠ .drain → examineHeads w s = s) ∧
    ∀ (h : Held) (rest : List Held), s.windowState w = .drain → s.holdList w = h :: rest → 1 ≤ h.length →
      (s.headFault w h = none → examineHeads w s = s) ∧
      ∀ k st, s.headFault w h = some (k, st) →
        (∀ data, h.body = .write data → examineHeads w s = examineHeads w
          (recordFault k .decoder (some w) none (some h.address) none (s.setHoldList w rest))) ∧
        (∀ i v, h.body = .read i → (s.entry i).live = some v → v.stage = .held → examineHeads w s = examineHeads w
          (recordFault k .decoder (some w) (some v.ticket) (some h.address) none
            ((s.setHoldList w rest).answered i v st []))))

/-! ### Management writes -/

/-- Every management write command is the arrival of the WRITE frame of its data at its offset of the aperture, and
MANAGEMENT_WRITE sends any such frame (R170, R189; that the rows are these frames is the model's reading: log 14). -/
def Obligations.ManagementRowsAreWriteFrames : Prop :=
  ∀ (s : State) (p : PortIdx) (w : WindowIdx) (i : LineIdx) (x y : Byte) (k : BitVec 16) (v : BitVec 32),
    let at' := fun (off : BitVec 16) (data : List Byte) => exec (.managementWrite off data) s
    let bytes4 := fun (v : BitVec 32) => [v.extractLsb' 24 8, v.extractLsb' 16 8, v.extractLsb' 8 8, v.extractLsb' 0 8]
    (∀ off data, at' off data = exec (.trunkIngressFrame
      (hostWriteFrame (s.apertureBase + BitVec.ofNat 40 off.toNat) data)) s) ∧
    (∀ b, exec (.windowRecordWrite w b) s = at' (0x2000 + 0x20 * BitVec.ofNat 16 w.val) b.toList) ∧
    (∀ b : BitVec 64, exec (.apertureBaseWrite b) s = at' 0x40 (bytes4 (b.extractLsb' 32 32) ++ bytes4 (b.extractLsb' 0 32))) ∧
    exec (.ticketLifetimeWrite v) s = at' 0x48 (bytes4 v) ∧ exec (.headWaitLimitWrite v) s = at' 0x4C (bytes4 v) ∧
    exec .routerReset s = at' 0x50 [0, 0, 0, 1] ∧
    (let port : BitVec 16 := 0x1000 + 0x100 * BitVec.ofNat 16 p.val
     exec (.portEnable p x y k) s = at' port [x, y, k.extractLsb' 8 8, k.extractLsb' 0 8] ∧
     exec (.autoDozeIntervalWrite p x y k) s = at' port [x, y, k.extractLsb' 8 8, k.extractLsb' 0 8] ∧
     exec (.dozeCommand p) s = at' (port + 8) [1, 0, 0, 0] ∧ exec (.wakeCommand p) s = at' (port + 8) [2, 0, 0, 0] ∧
     exec (.portResetCommand p) s = at' (port + 8) [3, 0, 0, 0]) ∧
    (∀ first n : Nat, let counters := fun (off : Nat) => exec (.trunkIngressFrame (hostWriteFrame
         (s.apertureBase + BitVec.ofNat 40 (off + 4 * first)) (List.replicate n (bytes4 v)).flatten)) s
      exec (.counterClear (.branch p) first n v) s = counters (0x1000 + 0x100 * p.val + 0x1C) ∧
      exec (.counterClear .trunk first n v) s = counters 0x1408) ∧
    (let line : BitVec 16 := 0x4000 + 8 * BitVec.ofNat 16 i.val
     exec (.eventLineEnableWrite i x y) s = at' line [x, y, 0, 0] ∧ exec (.ack i) s = at' (line + 4) [1, 0, 0, 0] ∧
     exec (.clear i) s = at' (line + 4) [2, 0, 0, 0]) ∧
    exec .pop s = at' 0x5028 [0, 0, 0, 1] ∧ exec (.droppedCountClear v) s = at' 0x5024 (bytes4 v)

/-- At a free decoder a whole-record write with enable on that names a mode and meets R8 replaces the record: with HOLD
the list is kept; with PASS the list drains, its head examined and free slots of the port granted, and an empty list gives
PASS. A write whose mode byte names no mode, or with enable on and a condition of R8 not met, is discarded with
WINDOW_INVALID at the record's address (R7 to R10, R18, R19, R22, R32, R34). -/
def Obligations.WindowWriteReplacesTheRecord : Prop :=
  ∀ (s : State) (w : WindowIdx) (bytes : Vector Byte 32), s.hostReady →
    (∀ m : Mode, m.named bytes[1] → let r := windowWritten m bytes
      let u := s.writeTaken.setWindow w r
      r.enable = true → r.valid = true →
      (m = .hold → exec (.windowRecordWrite w bytes) s = .next u) ∧
      (m = .pass → exec (.windowRecordWrite w bytes) s =
        .next (settle (grantWindows r.portIdx (examineHeads w u)))) ∧
      (m = .pass → s.holdList w = [] → s.drained → exec (.windowRecordWrite w bytes) s = .next u)) ∧
    (2 < bytes[1].toNat ∨ (∃ m, Mode.named m bytes[1] ∧ (windowWritten m bytes).enable = true ∧
        (windowWritten m bytes).valid = false) →
      exec (.windowRecordWrite w bytes) s = .next (recordFault .windowInvalid .management (some w) none
        (some (s.apertureBase + BitVec.ofNat 40 (0x2000 + 0x20 * w.val))) none s.writeTaken))

/-- A whole-record write with mode REFUSE or with enable off ends the window's held requests, oldest first: READs are
answered REFUSED or UNCLAIMED, WRITEs are discarded, and one record counts them if there were any (R9, R20, R21, R75). -/
def Obligations.RefuseAndDisableEndHeldRequests : Prop :=
  ∀ (s : State) (w : WindowIdx) (bytes : Vector Byte 32) (m : Mode), s.hostReady → s.placed → m.named bytes[1] →
    let r := windowWritten m bytes
    r.enable = false ∨ (r.valid = true ∧ m = .refuse) →
    let held := s.holdList w
    let st : Status := if r.enable then .refused else .unclaimed
    let k : FaultKind := if r.enable then .windowRefused else .windowDisabled
    ∃ t, exec (.windowRecordWrite w bytes) s = .next t ∧ t.window w = r ∧ (∀ x, x ≠ w → t.window x = s.window x) ∧
      t.holdList w = [] ∧ (∀ x, x ≠ w → t.holdList x = s.holdList x) ∧ t.replyLane = s.replyLane ++ heldReads held ∧
      (∀ i v, i ∈ heldReads held → (s.entry i).live = some v →
        t.entry i = ⟨(s.entry i).epoch, some { v with stage := .replying none st [] }⟩) ∧
      (∀ i, i ∉ heldReads held → t.entry i = s.entry i) ∧
      (s.faultLog.length < 16 → t.faultLog = s.faultLog ++ (if held = [] then [] else
        [⟨k, .management, some w, none, none, some (.one (BitVec.ofNat 16 held.length)), s.time⟩])) ∧
      t.ports = s.ports ∧ t.trunk = s.writeTaken.trunk ∧ t.ingress = [] ∧ t.time = s.time

/-- At a free decoder the aperture base takes any 64 KiB boundary of the 40-bit space, the ticket lifetime 16 to
1,048,575 and the head wait limit 0 to 65,535 microseconds; any other value is discarded with MGMT_FORM, which carries the
field's address, and leaves the field (R59, R65, R169, R172, R173, R177). -/
def Obligations.ControlFieldsTakeTheirRanges : Prop :=
  ∀ s : State, s.hostReady →
    let bad := fun (off : HostAddr) => Host.Outcome.next
      (recordFault .mgmtForm .management none none (some (s.apertureBase + off)) none s.writeTaken)
    (∀ v : BitVec 64, (v.toNat < 2 ^ 40 → v.toNat % 0x10000 = 0 →
        exec (.apertureBaseWrite v) s = .next { s.writeTaken with apertureBase := v.setWidth 40 }) ∧
      (2 ^ 40 ≤ v.toNat ∨ v.toNat % 0x10000 ≠ 0 → exec (.apertureBaseWrite v) s = bad 0x40)) ∧
    (∀ v : BitVec 32, (16 ≤ v.toNat → v.toNat ≤ 1048575 →
        exec (.ticketLifetimeWrite v) s = .next { s.writeTaken with ticketLifetime := v }) ∧
      (v.toNat < 16 ∨ 1048575 < v.toNat → exec (.ticketLifetimeWrite v) s = bad 0x48)) ∧
    (∀ v : BitVec 32, (v.toNat ≤ 65535 →
        exec (.headWaitLimitWrite v) s = .next { s.writeTaken with headWaitLimit := v }) ∧
      (65535 < v.toNat → exec (.headWaitLimitWrite v) s = bad 0x4C))

/-- At a free decoder ROUTER RESET clears the router: windows, hold lists, entries with their epochs kept, both lanes and
their arbitration, ports, lines, log, counters, lifetime and head wait limit; the trunk link with its adoption, the
aperture base and router time are kept (R5, R38, R64, R80, R103, R138, R141, R158, R166, R180, R181). No frame stands behind
the command here. That each branch receiver keeps its report and the credit items of the branch link ends are 0 are the
model's choices (log 9, log 10). -/
def Obligations.RouterResetClearsTheRouter : Prop :=
  ∀ s : State, s.hostReady → exec .routerReset s = .next { s with
    windows := Vector.replicate 24 ⟨false, .pass, false, false, 0, 0, 0, 0⟩
    holdLists := Vector.replicate 24 []
    decoder := ⟨none, .noClaim, none⟩
    entries := mapVec (fun x => ⟨x.epoch, none⟩) s.entries
    sentOrder := Vector.replicate 4 []
    replyLane := []
    generalQueue := []
    laneLast := .general
    arbLast := .eventUnit
    ports := mapVec (fun b => PortBlock.off b.link.signal) s.ports
    lines := Vector.replicate 33 ⟨false, 0, .idle, 0⟩
    lastLine := 32
    faultLog := []
    dropped := 0
    ticketLifetime := 50000
    headWaitLimit := 2000
    trunk := { s.trunk with
      framesOut := 0, framesIn := 0, crcErrors := 0, framesDiscarded := 0
      consumedA := s.trunk.consumedA + 1, creditPending := true } }

/-- At a free decoder the first control group of a port, written by PORT_ENABLE or AUTO_DOZE_INTERVAL_WRITE (log 15):
enable on takes a port in OFF to TRAINING with its first SYNC, enable off takes an enabled port to OFF with its flush, and
enable on in an enabled port and off in a port in OFF leave the state; the upstream write enable and the interval are
replaced, which in UP and idle restarts the idle time. A value out of range discards the whole write with MGMT_FORM (R34,
R87, R104, R105, R113, R172, R173). -/
def Obligations.PortControlGroupWrites : Prop :=
  ∀ (s : State) (p : PortIdx) (x y : Byte) (k : BitVec 16) (c : Instr), s.hostReady →
    c = .portEnable p x y k ∨ c = .autoDozeIntervalWrite p x y k →
    let b := s.port p
    let fields := fun (u : State) => u.setPort p { u.port p with upWriteEnable := y == 1, autoDoze := k }
    let good : Prop := x.toNat ≤ 1 ∧ y.toNat ≤ 1 ∧ k.toNat ≤ 255
    (¬good → exec c s = .next (recordFault .mgmtForm .management none none
      (some (s.apertureBase + BitVec.ofNat 40 (0x1000 + 0x100 * p.val))) none s.writeTaken)) ∧
    (good → x = 1 → b.state = .off → b.link.transmitting = none → exec c s =
      .next (settle (fields (grantWindows p (s.writeTaken.setPort p { b with
        state := .training, dozeRequested := false, answer := none, wake := none, idle := none
        dozeReqDue := false, wakeDue := false
        link := { b.link with
          retry := none, syncAckDue := false, creditPending := false, syncDue := false
          transmitting := some (.sync (BitVec.ofNat 8 (2 - b.buffer.length)) 4)
          framesOut := b.link.framesOut + 1, consumedA := 0, consumedB := 0, syncsSent := 1
          resend := some (s.time + 100) } }))))) ∧
    (good → x = 0 → b.state ≠ .off → exec c s = .next (settle (fields (portDown .off none p s.writeTaken)))) ∧
    (good → x = 1 ∧ b.state ≠ .off ∨ x = 0 ∧ b.state = .off → exec c s = .next (s.writeTaken.setPort p { b with
      upWriteEnable := y == 1, autoDoze := k
      idle := if b.state = .up ∧ s.portIdle p = true then
          (if k = 0 then none else some (s.time + k.setWidth 32 * 1000))
        else b.idle }))

/-- At a free decoder the port commands: DOZE in UP takes an idle port to DOZE_WAIT and sets doze requested on a busy one;
WAKE in DOZE takes the port to WAKING with a WAKE due; RESET in an enabled state flushes, enters DOWN and at once
TRAINING; each is then ACCEPTED, and anywhere else it is IGNORED alone (R34, R87, R106, R114, R115, R119, R120). That RESET
sends its SYNC at once, the frame in transmission having been cut at the entry to DOWN, is the model's reading (log 8). -/
def Obligations.PortCommands : Prop :=
  ∀ (s : State) (p : PortIdx), s.hostReady → let b := s.port p
    let ignored := Host.Outcome.next (s.writeTaken.setPort p { b with lastResult := .ignored })
    (b.state = .up → s.portIdle p = true → exec (.dozeCommand p) s = .next (s.writeTaken.setPort p { b with
      lastResult := .accepted, state := .dozeWait, idle := none, dozeRequested := false, dozeReqDue := true
      wakeDue := false })) ∧
    (b.state = .up → s.portIdle p = false → exec (.dozeCommand p) s = .next (s.writeTaken.setPort p { b with
      lastResult := .accepted, dozeRequested := true })) ∧
    (b.state ≠ .up → exec (.dozeCommand p) s = ignored) ∧
    (b.state = .doze → exec (.wakeCommand p) s = .next (s.writeTaken.setPort p { b with
      lastResult := .accepted, state := .waking, wake := some (s.time + b.wakeLimit.setWidth 32), answer := none
      idle := none, dozeReqDue := false, wakeDue := true, link := { b.link with syncAckDue := false } })) ∧
    (b.state ≠ .doze → exec (.wakeCommand p) s = ignored) ∧
    (b.state = .off → exec (.portResetCommand p) s = ignored) ∧
    (b.state ≠ .off →
      let u := portDown .down none p (s.writeTaken.setPort p { b with lastResult := .accepted })
      exec (.portResetCommand p) s = .next (settle (grantWindows p (u.setPort p { u.port p with
        state := .training
        link := { (u.port p).link with
          transmitting := some (.sync (BitVec.ofNat 8 (2 - (u.port p).buffer.length)) 4)
          framesOut := (u.port p).link.framesOut + 1, consumedA := 0, consumedB := 0, syncsSent := 1
          resend := some (s.time + 100) } }))))

/-- At a free decoder the event line writes: enable and vector are replaced, and a claim that appears is served; an enable
that is neither off nor on is MGMT_FORM. ACK takes NOTIFIED to IDLE and REPEAT to PENDING with count 0, and is ignored in
IDLE and PENDING; CLEAR takes every state to IDLE with count 0 (R148, R151, R152, R153). -/
def Obligations.EventLineWrites : Prop :=
  ∀ (s : State) (i : LineIdx), s.hostReady → let l := s.line i
    (∀ x v : Byte, x.toNat ≤ 1 → exec (.eventLineEnableWrite i x v) s =
      .next (serveClaims (s.writeTaken.setLine i { l with enable := x == 1, vector := v }))) ∧
    (∀ x v : Byte, 1 < x.toNat → exec (.eventLineEnableWrite i x v) s = .next (recordFault .mgmtForm .management none none
      (some (s.apertureBase + BitVec.ofNat 40 (0x4000 + 8 * i.val))) none s.writeTaken)) ∧
    (l.state = .notified → exec (.ack i) s =
      .next (s.writeTaken.setLine i { l with state := .idle, arrivals := 0 })) ∧
    (l.state = .again → exec (.ack i) s =
      .next (serveClaims (s.writeTaken.setLine i { l with state := .pending, arrivals := 0 }))) ∧
    (l.state = .idle ∨ l.state = .pending → exec (.ack i) s = .next s.writeTaken) ∧
    exec (.clear i) s = .next (s.writeTaken.setLine i { l with state := .idle, arrivals := 0 })

/-- At a free decoder, to which the row's WRITE frame arrives (log 14), POP removes the head record and the next oldest
becomes the head; on an empty log it is ignored. Line 32 and the dropped count are as they were, and a full log has room for
the next fault. A fault that occurs while the log holds fewer than 16 records is added at its tail with router time; while
it holds 16 the record is dropped, and the dropped count adds one and stays at 65,535. Either way the fault is an arrival on
line 32 (R146, R147, R159, R160, R164). -/
def Obligations.PopRemovesTheHeadRecord : Prop :=
  (∀ s : State, s.hostReady →
    exec .pop s = .next { s.writeTaken with faultLog := s.faultLog.tail } ∧
    (∀ r rest, s.faultLog = r :: rest → ∃ t, exec .pop s = .next t ∧ t.faultLog = rest ∧
      t.faultLog.length + 1 = s.faultLog.length ∧ t.line 32 = s.line 32 ∧ t.dropped = s.dropped ∧
      (s.faultLog.length ≤ 16 → ∀ x, (takeFault x t).faultLog = rest ++ [x] ∧ (takeFault x t).dropped = s.dropped)) ∧
    (s.faultLog = [] → exec .pop s = .next s.writeTaken)) ∧
  (∀ (s : State) (k : FaultKind) (src : FaultSource) (w : Option WindowIdx) (t : Option (BitVec 6)) (a : Option HostAddr)
      (c : Option FaultCount),
    let raised := fun (u : State) => serveClaims (u.setLine 32 { s.line 32 with
      state := match (s.line 32).state with
        | .idle => .pending
        | .pending => .pending
        | .notified => .again
        | .again => .again
      arrivals := if (s.line 32).arrivals = 255 then 255 else (s.line 32).arrivals + 1 })
    (s.faultLog.length < 16 →
      recordFault k src w t a c s = raised { s with faultLog := s.faultLog ++ [⟨k, src, w, t, a, c, s.time⟩] }) ∧
    (16 ≤ s.faultLog.length → s.dropped.toNat < 65535 →
      recordFault k src w t a c s = raised { s with dropped := s.dropped + 1 }) ∧
    (16 ≤ s.faultLog.length → s.dropped.toNat = 65535 → recordFault k src w t a c s = raised s))

/-- At a free decoder a write of any value to counters sets each one covered to 0 and no other, on the trunk the WRITE
itself having been counted in frames in before; a write of any value to the dropped count sets it to 0 (R101, R107, R163,
R179). -/
def Obligations.CounterWritesClear : Prop :=
  ∀ (s : State) (first n : Nat) (v : BitVec 32), s.hostReady → 1 ≤ n →
    let hit := fun (k : Nat) (x : Counter) => if first ≤ k ∧ k < first + n then 0 else x
    let cleared := fun (e : LinkEnd) => { e with
      framesOut := hit 0 e.framesOut, framesIn := hit 1 e.framesIn, crcErrors := hit 2 e.crcErrors
      framesDiscarded := hit 3 e.framesDiscarded }
    (first + n ≤ 4 → exec (.counterClear .trunk first n v) s =
      .next { s.writeTaken with trunk := cleared s.writeTaken.trunk }) ∧
    (∀ p, first + n ≤ 5 → exec (.counterClear (.branch p) first n v) s = .next (s.writeTaken.setPort p { s.port p with
      link := cleared (s.port p).link, stale := hit 4 (s.port p).stale })) ∧
    exec (.droppedCountClear v) s = .next { s.writeTaken with dropped := 0 }

/-- At a free decoder any other WRITE in the aperture: a bad form is discarded with MGMT_FORM, which carries the window of
a window record; a WRITE to a record that is read-only, to a group of a record that holds only read-only or reserved bytes,
or of a command code 0 alone has no effect; and the wake limit of 10 to 65,535 and the upstream
offset of a port are replaced, the offset's first three bytes ignored. A WRITE that covers a field with an invalid value, a
command code out of its range among them, is discarded whole with MGMT_FORM. One that covers fields and the command applies
the fields first: a WAKE takes the new wake limit, ACK and CLEAR act on the line as the new enable leaves it (its claim served
before: log 19), POP comes after the dropped count, and ROUTER RESET keeps the new aperture base and restores the defaults
(R104, R106, R151, R163, R171 to R174, R178, R188, R189). -/
def Obligations.ManagementWriteForms : Prop :=
  ∀ (s : State) (off : BitVec 16) (data : List Byte), s.hostReady → 1 ≤ data.length → data.length ≤ 64 →
    let go := exec (.managementWrite off data) s
    let len := data.length
    let inside := fun (r : RecordId) => r.offset ≤ off.toNat ∧ off.toNat + len ≤ r.offset + r.size
    (off.toNat % 4 ≠ 0 ∨ len % 4 ≠ 0 ∨ (∀ r, ¬inside r) ∨
      (∃ w, inside (.window w) ∧ ¬(off.toNat = 0x2000 + 0x20 * w.val ∧ len = 32)) ∨
      (inside .control ∧ off.toNat < 0x48 ∧ ¬(off.toNat = 0x40 ∧ 8 ≤ len)) ∨
      (∃ p, inside (.port p) ∧ off.toNat < 0x1000 + 0x100 * p.val + 0x18 ∧ 0x1000 + 0x100 * p.val + 0x10 < off.toNat + len ∧
        ¬(off.toNat ≤ 0x1000 + 0x100 * p.val + 0x10 ∧ 0x1000 + 0x100 * p.val + 0x18 ≤ off.toNat + len)) →
      go = .next (recordFault .mgmtForm .management
        (if 0x2000 ≤ off.toNat ∧ off.toNat < 0x2300 then some (Fin.ofNat 24 ((off.toNat - 0x2000) / 0x20)) else none)
        none (some (s.apertureBase + off.setWidth 40)) none s.writeTaken)) ∧
    (off.toNat % 4 = 0 → len % 4 = 0 → inside .identity ∨ inside .routerTime ∨ inside .logHead ∨ (∃ i, inside (.view i)) →
      go = .next s.writeTaken) ∧
    ((∃ p : PortIdx, let port := 0x1000 + 0x100 * p.val
        len = 4 ∧ (off.toNat = port + 0x0C ∨ off.toNat = port + 0x18 ∨ off.toNat = port + 8 ∧ data.head? = some 0)) ∨
      off.toNat % 4 = 0 ∧ len % 4 = 0 ∧ 0x1400 ≤ off.toNat ∧ off.toNat + len ≤ 0x1408 ∨ off.toNat = 0x5020 ∧ len = 4 ∨
      (∃ i : LineIdx, off.toNat = 0x4000 + 8 * i.val + 4 ∧ len = 4 ∧ data.head? = some 0) ∨
      (off.toNat = 0x50 ∨ off.toNat = 0x5028) ∧ data = [0, 0, 0, 0] → go = .next s.writeTaken) ∧
    (∀ p a b x y, off.toNat = 0x1000 + 0x100 * p.val + 4 → data = [a, b, x, y] →
      10 ≤ (a ++ b : BitVec 16).toNat → go = .next (s.writeTaken.setPort p { s.port p with wakeLimit := a ++ b })) ∧
    (∀ p a b c d e f g h, off.toNat = 0x1000 + 0x100 * p.val + 0x10 → data = [a, b, c, d, e, f, g, h] →
      go = .next (s.writeTaken.setPort p { s.port p with upOffset := d ++ e ++ f ++ g ++ h })) ∧
    (let bad := Host.Outcome.next (recordFault .mgmtForm .management none none (some (s.apertureBase + off.setWidth 40)) none
       s.writeTaken)
     let covers := fun (r : RecordId) (k : Nat) => inside r ∧ off.toNat ≤ r.offset + k ∧ r.offset + k < off.toNat + len
     let one := fun (r : RecordId) (k : Nat) => data.getD (r.offset + k - off.toNat) 0
     let two := fun (r : RecordId) (k : Nat) => (one r k ++ one r (k + 1) : BitVec 16).toNat
     let four := fun (r : RecordId) (k : Nat) => 65536 * two r k + two r (k + 2)
     (covers .control 0x00 ∧ off.toNat = 0x40 ∧
         (four .control 0 * 2 ^ 32 + four .control 4 ≥ 2 ^ 40 ∨ (four .control 4) % 0x10000 ≠ 0) ∨
       covers .control 0x08 ∧ (four .control 8 < 16 ∨ 1048575 < four .control 8) ∨
       covers .control 0x0C ∧ 65535 < four .control 0x0C ∨ covers .control 0x10 ∧ 1 < four .control 0x10 ∨
       covers .logControl 8 ∧ 1 < four .logControl 8 ∨
       (∃ p, covers (.port p) 0 ∧ (1 < (one (.port p) 0).toNat ∨ 1 < (one (.port p) 1).toNat ∨ 255 < two (.port p) 2) ∨
         covers (.port p) 4 ∧ two (.port p) 4 < 10 ∨ covers (.port p) 8 ∧ 3 < (one (.port p) 8).toNat) ∨
       (∃ i, covers (.line i) 0 ∧ 1 < (one (.line i) 0).toNat ∨ covers (.line i) 4 ∧ 2 < (one (.line i) 4).toNat) →
       go = bad)) ∧
    (∀ p y k a b r, off.toNat = 0x1000 + 0x100 * p.val → data = [1, y, 0, k, a, b, 0, 0, 2, 0, 0, r] → y.toNat ≤ 1 →
      10 ≤ (a ++ b : BitVec 16).toNat → (s.port p).state = .doze →
      go = .next (s.writeTaken.setPort p { s.port p with
        upWriteEnable := y == 1, autoDoze := k.setWidth 16, wakeLimit := a ++ b, lastResult := .accepted, state := .waking
        wake := some (s.time + (a ++ b : BitVec 16).setWidth 32), answer := none, idle := none, dozeReqDue := false
        wakeDue := true, link := { (s.port p).link with syncAckDue := false } })) ∧
    (∀ i x v c, off.toNat = 0x4000 + 8 * i.val → data = [x, v, 0, 0, c, 0, 0, 0] → x.toNat ≤ 1 →
      let u := serveClaims (s.writeTaken.setLine i { s.line i with enable := x == 1, vector := v })
      let l := u.line i
      (c = 0 → go = .next u) ∧
      (c = 1 → l.state = .notified → go = .next (u.setLine i { l with state := .idle, arrivals := 0 })) ∧
      (c = 1 → l.state = .again → go = .next (serveClaims (u.setLine i { l with state := .pending, arrivals := 0 }))) ∧
      (c = 1 → l.state = .idle ∨ l.state = .pending → go = .next u) ∧
      (c = 2 → go = .next (u.setLine i { l with state := .idle, arrivals := 0 }))) ∧
    (∀ d e f g, off.toNat = 0x5024 → data = [d, e, f, g, 0, 0, 0, 1] →
      go = .next { s.writeTaken with dropped := 0, faultLog := s.faultLog.tail }) ∧
    (∀ a b c x y z w v, off.toNat = 0x40 → data = [0, 0, 0, a, b, c, 0, 0, 0, 0, x, y, 0, 0, z, w, 0, 0, 0, v] →
      16 ≤ (x ++ y : BitVec 16).toNat →
      let base : HostAddr := a ++ b ++ c ++ (0 : BitVec 16)
      (v = 0 → go = .next { s.writeTaken with
        apertureBase := base, ticketLifetime := (x ++ y : BitVec 16).setWidth 32
        headWaitLimit := (z ++ w : BitVec 16).setWidth 32 }) ∧
      (v = 1 → go = exec .routerReset { s with apertureBase := base }))

/-! ### Invariants that every step keeps -/

/-- An enabled record meets R8, a window that is disabled or in REFUSE holds nothing, the control fields stay in their
ranges, and no queue, list, buffer or log exceeds its slots (R3, R9, R23, R59, R65, R96, R104, R108, R123, R136, R160,
R167). -/
def Obligations.StepsKeepRecordsAndBounds : Prop :=
  ∀ s t : State, step s = .next t →
    (s.windowsValid → t.windowsValid) ∧ (s.listsFit → t.listsFit) ∧ (s.controlValid → t.controlValid) ∧
    (s.logBounded → t.logBounded) ∧ (s.queuesBounded → t.queuesBounded)

/-- No two live entries carry one host ticket (R62). -/
def Obligations.StepsKeepTicketsDistinct : Prop :=
  ∀ s t : State, s.ticketsDistinct → step s = .next t → t.ticketsDistinct

/-- Each entry stands in the one place that its state gives it and nowhere else, and a port in OFF or DOWN has an empty
queue, an empty buffer and no entry in QUEUED or SENT (R25, R66, R67, R68, R75, R111, R135). -/
def Obligations.StepsKeepEveryReadInItsPlace : Prop :=
  ∀ s t : State, s.placed → step s = .next t → t.placed ∧ (s.portsQuiet → t.portsQuiet)

/-- Deadlines and due frames stand only in the states that give them, and a port in UP has an idle deadline exactly while
it is idle with an interval that is not 0 (R83, R87, R91, R110, R113, R114, R115, R120). Three items are the model's: the
flag of a SYNC held back, in TRAINING alone (log 6), CREDIT pending kept in DOZE and WAKING (log 23), and that a port which
trunk loss leaves idle does not keep doze requested (log 33). -/
def Obligations.StepsKeepTimersInTheirStates : Prop :=
  ∀ s t : State, step s = .next t →
    (s.portTimers → t.portTimers) ∧ (s.linkTimers → t.linkTimers) ∧
    (s.placed → s.portTimers → s.idleKept → t.idleKept)

/-- No claimant of the general queue waits while a slot is free in UP (R141), and a head that waits lacks a resource its
fate needs, with the claim and the matching window of that fate (R40, R42, R48, R53). -/
def Obligations.StepsLeaveNothingWaitingInVain : Prop :=
  ∀ s t : State, s.admitted → s.headWaits → step s = .next t → t.admitted ∧ t.headWaits

/-- No draining window whose head passes waits while its port's queue has a slot to grant; and no draining window keeps a
head that fails its examination, save from trunk loss to the next tick (R27, R34). That failing heads which trunk loss
uncovers are examined at that tick is the model's choice (log 16), and so is the containment of a request under two windows
(log 37). -/
def Obligations.StepsDrainWhatCanDrain : Prop :=
  (∀ s t : State, step s = .next t →
    (s.slotsGranted → t.slotsGranted) ∧
    (s.drained → s.trunkState = .down ∨ t.trunkState ≠ .down → t.drained)) ∧
  ∀ s : State, s.porN = true → s.slotsGranted → ∃ t, exec .routerTimeTick s = .next t ∧ t.drained

/-- The state after reset meets every invariant. -/
def Obligations.ResetMeetsTheInvariants : Prop :=
  let s := State.reset
  s.windowsValid ∧ s.listsFit ∧ s.controlValid ∧ s.logBounded ∧ s.queuesBounded ∧ s.ticketsDistinct ∧ s.placed ∧
  s.portsQuiet ∧ s.portTimers ∧ s.linkTimers ∧ s.idleKept ∧ s.admitted ∧ s.headWaits ∧ s.slotsGranted ∧ s.drained

/-! ### Frames as bytes -/

/-- The frame of a well-formed arrival, written as its bytes with its CRC, is read back as that arrival: every operand at
every value, for frames whose size holds their fields. A receiver makes that command of the frame's symbols: the data bytes
between a frame start and a frame end are the frame. One that holds fewer than 3 or more than 73 bytes, or is broken by a
code violation, an idle symbol or a second frame start, is a frame whose CRC fails, and the second start opens a new one;
symbols outside a frame make nothing, and neither does a receiver whose signal is absent, or one that REFCLK has stopped. A
frame that the router transmits has the layout and the size of its kind, its fields most significant byte first, and ends in
the CRC of the bytes before (R98, R186, R187, R190); a length or data count stands in its byte modulo 256, and the
frame checks keep it below. The model's: that the receivers stand before the queue (log 27) and that a broken frame fails and is
closed at the symbol that breaks it (log 39) are its choices, and that a receiver stays stopped, and makes nothing, also after
REFCLK has returned and until it has reported is its reading (log 28). -/
def Obligations.FramesReadBackAsTheyAreWritten : Prop :=
  (∀ (c : Instr) (l : Link) (size : Nat) (body bytes : List Byte), c.wellFormed = true →
    frameBody c = some (l, size, body) → body.length + 2 ≤ size → frameBytes c = some (l, bytes) →
    bytes.length = size ∧ frameCommand l bytes = c) ∧
  (∀ (l : Link) (bytes : List Byte), bytes.length < 3 ∨ 73 < bytes.length → frameCommand l bytes = .crcError l) ∧
  (∀ (l : Link) (r : Receiver) (bytes more : List Byte), r.signal = true → r.stopped = false → r.frame = none →
    let heard : Receiver := { r with heard := true, quiet := 0, steady := some (r.steady.getD 0) }
    let opened : List Symbol := .frameStart :: bytes.map .data
    r.hear l (opened ++ [.frameEnd]) = (heard, [frameCommand l bytes]) ∧
    r.hear l (opened ++ [.idle]) = (heard, [.crcError l]) ∧
    r.hear l (opened ++ [.violation]) = ({ heard with steady := none }, [.crcError l]) ∧
    r.hear l (opened ++ .frameStart :: more.map .data ++ [.frameEnd]) = (heard, [.crcError l, frameCommand l more]) ∧
    ∀ xs : List Symbol, .frameStart ∉ xs → (r.hear l xs).2 = [] ∧ (r.hear l xs).1.frame = none) ∧
  (∀ (l : Link) (r : Receiver) (xs : List Symbol), r.signal = false ∨ r.stopped = true → (r.hear l xs).2 = []) ∧
  ∀ f : TxFrame,
    let n := f.bytes.length
    let field := fun (k m : Nat) => beNat ((f.bytes.drop k).take m)
    let carries := fun (k : Nat) (data : List Byte) => (f.bytes.drop k).take data.length = data
    field (n - 2) 2 = (crc16 (f.bytes.take (n - 2))).toNat ∧
    match f with
    | .sync a b => n = 5 ∧ field 0 1 = 0x80 ∧ field 1 1 = a.toNat ∧ field 2 1 = b.toNat
    | .syncAck a b => n = 5 ∧ field 0 1 = 0x90 ∧ field 1 1 = a.toNat ∧ field 2 1 = b.toNat
    | .credit a b => n = 5 ∧ field 0 1 = 0xA0 ∧ field 1 1 = a.toNat ∧ field 2 1 = b.toNat
    | .dozeReq => n = 3 ∧ field 0 1 = 0xB0
    | .wake => n = 3 ∧ field 0 1 = 0xC0
    | .moduleWrite a data => n = 8 + data.length ∧ field 0 1 = 0x10 ∧ field 1 1 = data.length % 256 ∧
        field 2 4 = a.toNat ∧ carries 6 data
    | .moduleRead t len a => n = 9 ∧ field 0 1 = 0x20 ∧ field 1 1 = t.toNat ∧ field 2 1 = len % 256 ∧ field 3 4 = a.toNat
    | .result t st data => n = 5 + data.length ∧
        field 0 1 = (match st with
          | .ok => 0x30
          | .unclaimed => 0x31
          | .refused => 0x32
          | .expired => 0x33
          | .damaged => 0x34) ∧
        field 1 1 = t.toNat ∧ field 2 1 = data.length % 256 ∧ carries 3 data
    | .hostWrite a data => n = 9 + data.length ∧ field 0 1 = 0x10 ∧ field 1 1 = data.length % 256 ∧
        field 2 5 = a.toNat ∧ carries 7 data
    | .notice v => n = 4 ∧ field 0 1 = 0x50 ∧ field 1 1 = v.toNat

/-- The record map of the aperture: a request of a length that is not 0 is given a record exactly when its offset and its
length are multiples of 4 and the record contains all of its bytes. The bytes of each record spell its fields at their
offsets, most significant byte first, its codes as the tables give them, an absent item, a command and every other byte as 0
(R2, R81, R107, R129, R154, R162, R163, R170, R171, R175, R188, R189). An occupancy or length stands in its byte modulo 256,
which `StepsKeepRecordsAndBounds` and the frame checks keep below 256. -/
def Obligations.RecordMapIsExact : Prop :=
  (∀ (off len : Nat) (r : RecordId) (k : Nat), 1 ≤ len →
    (readForm off len = some (r, k) ↔
      off % 4 = 0 ∧ len % 4 = 0 ∧ r.offset ≤ off ∧ off + len ≤ r.offset + r.size ∧ k = off - r.offset)) ∧
  ∀ s : State,
    let field := fun (r : RecordId) (k n : Nat) => beNat (((recordBytes s r).drop k).take n)
    let flag := fun (b : Bool) => if b then 1 else 0
    let counters := fun (r : RecordId) (k : Nat) (e : LinkEnd) => field r k 4 = e.framesOut.toNat ∧
      field r (k + 4) 4 = e.framesIn.toNat ∧ field r (k + 8) 4 = e.crcErrors.toNat ∧
      field r (k + 12) 4 = e.framesDiscarded.toNat
    (∀ r, (recordBytes s r).length = r.size) ∧
    recordBytes s .identity =
      [0xD6, 0xA3, 0x41, 0x20, 0x01, s.strapId.setWidth 8, 24, 16, 16, 16, 8, 8, 2, 8, 33, 16] ∧
    (field .control 0 8 = s.apertureBase.toNat ∧ field .control 8 4 = s.ticketLifetime.toNat ∧
      field .control 0xC 4 = s.headWaitLimit.toNat ∧ field .control 0x10 4 = 0) ∧
    field .routerTime 0 4 = s.time.toNat ∧
    (∀ p, let f := field (.port p)
      let b := s.port p
      f 0 1 = flag (b.state != .off) ∧ f 1 1 = flag b.upWriteEnable ∧ f 2 2 = b.autoDoze.toNat ∧
      f 4 2 = b.wakeLimit.toNat ∧ f 6 6 = 0 ∧
      f 0xC 1 = (match b.state with
        | .off => 0
        | .down => 1
        | .training => 2
        | .up => 3
        | .dozeWait => 4
        | .doze => 5
        | .waking => 6) ∧
      f 0xD 1 = flag b.dozeRequested ∧
      f 0xE 1 = (match b.lastResult with
        | .none => 0
        | .accepted => 1
        | .ignored => 2) ∧
      f 0xF 1 = b.queue.length % 256 ∧ f 0x10 8 = b.upOffset.toNat ∧ f 0x18 1 = b.buffer.length % 256 ∧ f 0x19 3 = 0 ∧
      counters (.port p) 0x1C b.link ∧ f 0x2C 4 = b.stale.toNat) ∧
    (let f := field .trunk
     f 0 1 = (match s.trunkState with
       | .down => 0
       | .training => 1
       | .up => 2) ∧
     f 1 1 = s.ingressCount false % 256 ∧ f 2 1 = s.ingressCount true % 256 ∧ f 3 1 = s.replyLane.length % 256 ∧
     f 4 1 = s.generalQueue.length % 256 ∧
     f 5 1 = (if s.trunkState = .up then (s.trunk.adoptedA + s.trunk.reportedA - s.trunk.sentA).toNat else 0) ∧
     f 6 2 = 0 ∧ counters .trunk 8 s.trunk) ∧
    (∀ w, let f := field (.window w)
      let r := s.window w
      f 0 1 = flag r.enable + 2 * flag r.readPermit + 4 * flag r.writePermit ∧
      f 1 1 = (match r.mode with
        | .pass => 0
        | .hold => 1
        | .refuse => 2) ∧
      f 2 1 = r.port.toNat ∧
      f 3 1 = (if r.enable then match r.mode with
          | .pass => if s.holdList w = [] then 1 else 2
          | .hold => 3
          | .refuse => 4
        else 0) ∧
      f 4 1 = (s.holdList w).length % 256 ∧ f 5 3 = 0 ∧ f 8 5 = r.base.toNat ∧ f 0xD 3 = 0 ∧ f 0x10 5 = r.limit.toNat ∧
      f 0x15 3 = 0 ∧ f 0x18 4 = r.target.toNat ∧ f 0x1C 4 = 0) ∧
    (∀ i, let f := field (.view i)
      let e := s.entry i
      f 1 1 = e.epoch.toNat ∧ f 2 1 = 4 * i.val + e.epoch.toNat ∧
      (e.live = none → f 0 1 = 0 ∧ f 3 29 = 0) ∧
      (∀ v, e.live = some v →
        f 0 1 = (match v.stage with
          | .held => 1
          | .queued _ => 2
          | .sent _ => 3
          | .replying .. => 4) ∧
        f 3 1 = flag v.window.isSome + 2 * flag v.stage.route.isSome + 4 * flag v.stage.isReplying ∧
        f 4 1 = v.ticket.toNat ∧ f 5 1 = v.length % 256 ∧ f 6 1 = (v.window.map (·.val)).getD 0 ∧
        f 7 1 = (v.stage.route.map (·.port.val)).getD 0 ∧ f 8 5 = v.address.toNat ∧
        f 0xD 1 = (match v.stage with
          | .replying _ st _ => match st with
            | .ok => 0
            | .unclaimed => 1
            | .refused => 2
            | .expired => 3
            | .damaged => 4
          | _ => 0) ∧
        f 0xE 2 = 0 ∧ f 0x10 4 = (v.stage.route.map (·.address.toNat)).getD 0 ∧ f 0x14 4 = v.deadline.toNat ∧
        f 0x18 8 = 0)) ∧
    (∀ i, let f := field (.line i)
      let l := s.line i
      f 0 1 = flag l.enable ∧ f 1 1 = l.vector.toNat ∧ f 2 3 = 0 ∧
      f 5 1 = (match l.state with
        | .idle => 0
        | .pending => 1
        | .notified => 2
        | .again => 3) ∧
      f 6 1 = l.arrivals.toNat ∧ f 7 1 = 0) ∧
    (let f := field .logHead
     (s.faultLog = [] → f 0 32 = 0) ∧
     ∀ r rest, s.faultLog = r :: rest →
        f 0 1 = r.kind.code ∧ f 1 1 = r.source.code ∧
        f 2 1 = flag r.window.isSome + 2 * flag r.ticket.isSome + 4 * flag r.address.isSome + 8 * flag r.count.isSome ∧
        f 3 1 = (r.window.map (·.val)).getD 0 ∧ f 4 1 = (r.ticket.map (·.toNat)).getD 0 ∧ f 5 3 = 0 ∧
        f 8 5 = (r.address.map (·.toNat)).getD 0 ∧ f 0xD 3 = 0 ∧
        (r.count = none → f 0x10 2 = 0) ∧ (∀ n, r.count = some (.one n) → f 0x10 2 = n.toNat) ∧
        (∀ x y, r.count = some (.pair x y) → f 0x10 1 = x.toNat ∧ f 0x11 1 = y.toNat) ∧
        f 0x12 2 = 0 ∧ f 0x14 4 = r.time.toNat ∧ f 0x18 8 = 0) ∧
    ([.noWindow, .crossing, .notPermitted, .windowRefused, .windowDisabled, .portUnavailable, .ticketReuse, .headStall,
      .creditOverrun, .crcError, .frameInvalid, .staleResult, .resultLength, .expired, .flush, .trainingFail, .signalLost,
      .dozeNoAnswer, .wakeFail, .upWriteBlocked, .upWriteRange, .mgmtForm, .windowInvalid].map FaultKind.code =
        (List.range 24).tail ∧
      [.trunk, .branch 0, .branch 1, .branch 2, .branch 3, .decoder, .tickets, .management].map FaultSource.code =
        (List.range 9).tail) ∧
    (field .logControl 0 4 = s.faultLog.length % 2 ^ 32 ∧ field .logControl 4 4 = s.dropped.toNat ∧
      field .logControl 8 4 = 0)
end

