-- ==== Sys2Proof/Laws/Lanes.lean ====
section
/-! SUPPORT. What the receivers and the clock do with a run of inputs, and what is driven on a lane. -/

namespace Sys2Proof.Machine

@[simp] theorem Receiver.hear_nil (l : Link) (r : Receiver) : r.hear l [] = (r, []) := rfl

theorem Receiver.hear_cons (l : Link) (x : Symbol) (xs : List Symbol) (r : Receiver) :
    r.hear l (x :: xs) = (((r.take l x).1.hear l xs).1, (r.take l x).2 ++ ((r.take l x).1.hear l xs).2) := rfl

/-- One run of symbols after another. -/
theorem Receiver.hear_append (l : Link) (xs ys : List Symbol) (r : Receiver) :
    r.hear l (xs ++ ys) = (((r.hear l xs).1.hear l ys).1, (r.hear l xs).2 ++ ((r.hear l xs).1.hear l ys).2) := by
  induction xs generalizing r with
  | nil => rfl
  | cons x xs ih => simp only [List.cons_append, Receiver.hear_cons, ih, List.append_assoc]

/-- What a valid symbol does at a receiver that delivers: the detection hears it, and the framing takes it. -/
theorem Receiver.take_valid {l : Link} {x : Symbol} {r : Receiver} (hx : x ≠ .violation) (hs : r.signal = true)
    (hr : r.stopped = false) : r.take l x =
      ({ r with heard := true, quiet := 0, steady := some (r.steady.getD 0) } : Receiver).deframe l x := by
  simp [Receiver.take, Receiver.detect, hx, hs, hr]

/-- A symbol makes at most one command, and only at a receiver whose signal is present; it changes no report. -/
theorem Receiver.take_frame (l : Link) (x : Symbol) (r : Receiver) :
    (r.take l x).1.signal = r.signal ∧ (r.take l x).1.stopped = r.stopped ∧ (r.take l x).2.length ≤ 1 ∧
    (r.signal = false → (r.take l x).2 = []) := by
  unfold Receiver.take Receiver.detect Receiver.deframe
  cases x <;> cases r.frame <;> simp only [] <;> split <;> simp_all <;> split <;> simp_all

/-- A run of data bytes joins the frame that is open (R186). -/
theorem Receiver.hear_data (l : Link) (bytes more : List Byte) (r : Receiver) (hs : r.signal = true)
    (hr : r.stopped = false) (hh : r.heard = true) (hq : r.quiet = 0) (ht : r.steady.isSome = true)
    (hf : r.frame = some bytes) :
    r.hear l (more.map .data) = ({ r with frame := some (bytes ++ more) }, []) := by
  induction more generalizing bytes r with
  | nil => simp [← hf]
  | cons b bs ih =>
    have step : r.take l (.data b) = ({ r with frame := some (bytes ++ [b]) }, []) := by
      rw [Receiver.take_valid (by simp) hs hr]
      simp only [Receiver.deframe, hf]
      obtain ⟨n, hn⟩ := Option.isSome_iff_exists.mp ht
      rw [← hh, ← hq, hn, Option.getD_some, ← hn]
    rw [List.map_cons, Receiver.hear_cons, step, ih (bytes ++ [b]) { r with frame := some (bytes ++ [b]) } hs hr hh hq ht rfl]
    simp

@[simp] theorem Front.run_nil (f : Front) : f.run [] = (f, []) := rfl

theorem Front.run_cons (i : FrontInput) (is : List FrontInput) (f : Front) :
    f.run (i :: is) = (((f.take i).1.run is).1, (f.take i).2 ++ ((f.take i).1.run is).2) := rfl

/-- One run of inputs after another. -/
theorem Front.run_append (is js : List FrontInput) (f : Front) :
    f.run (is ++ js) = (((f.run is).1.run js).1, (f.run is).2 ++ ((f.run is).1.run js).2) := by
  induction is generalizing f with
  | nil => rfl
  | cons i is ih => simp only [List.cons_append, Front.run_cons, ih, List.append_assoc]

@[simp] theorem Front.receiver_setReceiver_same (f : Front) (l : Link) (r : Receiver) :
    (f.setReceiver l r).receiver l = r := by
  cases l <;> simp [Front.setReceiver, Front.receiver]

theorem Front.receiver_setReceiver_other {k l : Link} (h : k ≠ l) (f : Front) (r : Receiver) :
    (f.setReceiver l r).receiver k = f.receiver k := by
  cases l with
  | trunk => cases k <;> simp_all [Front.setReceiver, Front.receiver]
  | branch p =>
    cases k with
    | trunk => rfl
    | branch q =>
      have hq : p.val ≠ q.val := fun e => h (by rw [Fin.ext e])
      simp [Front.setReceiver, Front.receiver, Vector.getElem_set_ne _ _ hq]

@[simp] theorem Front.cycles_setReceiver (f : Front) (l : Link) (r : Receiver) :
    (f.setReceiver l r).cycles = f.cycles := by cases l <;> rfl

/-- A cycle of REFCLK at a receiver makes at most its own report, and where it makes one the signal has changed. -/
theorem Receiver.cycle_report (l : Link) (r : Receiver) :
    (r.cycle l).2 = (if r.signal = (r.cycle l).1.signal then []
      else if r.signal then [.signalLost l] else [.signalPresent l]) := by
  obtain ⟨frame, signal, heard, quiet, steady, stopped⟩ := r
  unfold Receiver.cycle
  dsimp only
  generalize min detectCycles (quiet + 1) = q
  generalize (if heard = true then steady.map fun n => min detectCycles (n + 1) else none) = t
  by_cases hq : q = detectCycles
  · cases signal <;> simp [hq]
  · by_cases ht : t = some detectCycles
    · cases signal <;> simp [hq, ht]
    · simp [hq, ht]

/-- The commands of a run of inputs join the queue, and nothing else changes. -/
theorem State.await_eq (s : State) (f : Front) (is : List FrontInput) :
    s.await f is = { s with pending := s.pending ++ (f.run is).2 } := rfl

end Sys2Proof.Machine
end

