-- ==== Sys2Proof/Tests/Slice0.lean ====
section
/-! SUPPORT. Tests on single happenings, their expected values taken from the worked examples and tables of spec/, and a witness for the hypotheses of every statement that has some. The CRC of each written-out frame was computed apart from the model, by the check value that R186 gives. -/

namespace Sys2Proof.Tests

open Sys2Proof Sys2Proof.Machine

-- One theorem after the other: many at once need more threads than a bounded memory gives.
set_option Elab.async false

/-! ### Small states -/

/-- The next state of an outcome. -/
def now (o : Host.Outcome State Fault Refusal) : State :=
  match o with
  | .next t => t
  | .fault _ => .reset
  | .refused _ => .reset

/-- A link end after an exchange with these capacities. -/
def trained (a b : Byte) (e : LinkEnd) : LinkEnd :=
  { e with transmitting := none, resend := none, syncsSent := 0, adoptedA := a, adoptedB := b }

/-- The router with its trunk in UP, at router time 1000. -/
def up : State := { State.reset with trunkState := .up, trunk := trained 64 0 State.reset.trunk, time := 1000 }

/-- A port in a state, its link trained with WRITE 4 and READ 4. -/
def portIn (p : PortIdx) (st : PortState) (s : State) : State :=
  s.setPort p { s.port p with state := st, link := trained 4 4 (s.port p).link }

/-- A window record with both permits on, enabled. -/
def win (m : Mode) (p : Byte) (base limit : HostAddr) (target : ModuleAddr) : WindowRecord :=
  ⟨true, m, true, true, p, base, limit, target⟩

/-- The windows of the lookup example of 01_address_windows.md, ports 1 to 3 in UP. -/
def lookups : State :=
  portIn 1 .up (portIn 2 .up (portIn 3 .up
    ((((up.setWindow 2 (win .pass 1 0x40000000 0x4000FFFF 0x100000)).setWindow 5
      { win .pass 2 0x40008000 0x40017FFF 0x80000000 with writePermit := false }).setWindow 9
      ⟨true, .refuse, false, false, 0, 0, 0xFFFFFFFF, 0⟩).setWindow 11 (win .pass 3 0xFFFFF00000 0xFFFFFFFFFF 0))))

/-- A live READ of ticket 5 for window 2, 8 bytes at 0x40000100, its deadline at router time 1100. -/
def readX (st : Stage) : Live := ⟨5, some 2, 0x40000100, 8, 1100, st⟩

/-- An entry with its epoch 1 and a live READ. -/
def withRead (i : EntryIdx) (st : Stage) (s : State) : State := s.setEntry i ⟨1, some (readX st)⟩

/-- A READ of an entry in a branch egress queue. -/
def readQ (i : EntryIdx) : Queued := ⟨0x100100, 8, .read i⟩

/-- A WRITE of 4 bytes in a branch egress queue. -/
def writeQ : Queued := ⟨0x2000, 4, .write [1, 2, 3, 4]⟩

/-- A queue of a port. -/
def queued (p : PortIdx) (q : List Queued) (s : State) : State := s.setPort p { s.port p with queue := q }

/-- A WRITE of the host that waits in the trunk ingress queue. -/
def waitingWrite : HostFrame := ⟨0x40000000, 4, .write [1, 2, 3, 4]⟩

/-- A READ of the host that waits in the trunk ingress queue. -/
def waitingRead : HostFrame := ⟨0x40000000, 4, .read 40⟩

/-- The claimants of the general queue. -/
def claimants : List Claimant := [.decoder, .branch 0, .branch 1, .branch 2, .branch 3, .eventUnit]

/-- A state that is ready for a host frame, as a check. -/
def quiet (s : State) : Bool :=
  s.porN && s.trunk.signal && s.trunkState == .up && s.ingress.isEmpty && claimants.all (fun c => !s.claims c) &&
    s.apertureBase.toNat % 0x10000 == 0

theorem hostReady_of_quiet {s : State} (h : quiet s = true) : s.hostReady := by
  simp only [quiet, Bool.and_eq_true, beq_iff_eq, List.isEmpty_iff, List.all_eq_true] at h
  obtain ⟨⟨⟨⟨⟨h1, h2⟩, h3⟩, h4⟩, h5⟩, h6⟩ := h
  refine ⟨h1, h2, h3, h4, fun _ c => ?_, h6⟩
  have hc : c ∈ claimants := by
    cases c with
    | decoder => decide
    | eventUnit => decide
    | branch p => revert p; decide
  simpa using h5 c hc

/-! ### Well-formed commands -/

theorem test_wf_read_size : (Instr.trunkIngressFrame (.read 74 1 4 0)).wellFormed = false := by decide
theorem test_wf_write_data : (Instr.trunkIngressFrame (.write 13 4 0 [1, 2, 3])).wellFormed = false := by decide
theorem test_wf_reset_size : (Instr.trunkReset 2).wellFormed = false := by decide
theorem test_wf_sync_size : (Instr.syncReceived .trunk 2 0 0).wellFormed = false := by decide
theorem test_wf_syncAck_size : (Instr.syncAckReceived .trunk 74 0 0).wellFormed = false := by decide
theorem test_wf_credit_size : (Instr.creditReceived .trunk 0 0 0).wellFormed = false := by decide
theorem test_wf_moduleWrite_data : (Instr.moduleWriteArrival 0 12 4 0 []).wellFormed = false := by decide
theorem test_wf_result_data : (Instr.branchResultArrival 0 9 0 0 4 [1]).wellFormed = false := by decide
theorem test_wf_event_size : (Instr.eventFrame 0 2 0).wellFormed = false := by decide
theorem test_wf_dozeAck_size : (Instr.dozeAck 0 74).wellFormed = false := by decide
theorem test_wf_moduleWake_size : (Instr.moduleWake 0 1).wellFormed = false := by decide
theorem test_wf_disallowed_size : (Instr.disallowedKindFrame .trunk 2 0x40).wellFormed = false := by decide
theorem test_wf_disallowed_kind : (Instr.disallowedKindFrame .trunk 3 0x20).wellFormed = false := by decide
theorem test_wf_counter_none : (Instr.counterClear .trunk 0 0 0).wellFormed = false := by decide
theorem test_wf_counter_trunk : (Instr.counterClear .trunk 3 2 0).wellFormed = false := by decide
theorem test_wf_counter_branch : (Instr.counterClear (.branch 0) 3 2 0).wellFormed = true := by decide
theorem test_wf_write_empty : (Instr.managementWrite 0 []).wellFormed = false := by decide
theorem test_wf_write_long : (Instr.managementWrite 0 (List.replicate 65 0)).wellFormed = false := by decide

/-! ### Frames as bytes (R186, R187) -/

theorem test_crc_check_value : crc16 [0x31, 0x32, 0x33, 0x34, 0x35, 0x36, 0x37, 0x38, 0x39] = 0x29B1#16 := by
  decide +kernel
theorem test_frame_reset : frameCommand .trunk [0xF0, 0x0E, 0xEF] = .trunkReset 3 := by decide +kernel
theorem test_frame_host_write :
    frameCommand .trunk [0x10, 0x04, 0xFF, 0xFF, 0xFC, 0x00, 0x48, 0x00, 0x00, 0x03, 0xE8, 0x73, 0xB6]
      = .trunkIngressFrame (.write 13 4 0xFFFFFC0048 [0x00, 0x00, 0x03, 0xE8]) := by decide +kernel
theorem test_frame_host_read :
    frameCommand .trunk [0x20, 0x05, 0x08, 0x00, 0x40, 0x00, 0x01, 0x00, 0x63, 0x1E]
      = .trunkIngressFrame (.read 10 5 8 0x40000100) := by decide +kernel
theorem test_frame_sync : frameCommand .trunk [0x80, 0x40, 0x00, 0xFA, 0x0A] = .syncReceived .trunk 5 64 0 := by
  decide +kernel
theorem test_frame_syncAck : frameCommand .trunk [0x90, 0x26, 0x00, 0x18, 0xE5] = .syncAckReceived .trunk 5 38 0 := by
  decide +kernel
theorem test_frame_credit :
    frameCommand (.branch 1) [0xA0, 0x02, 0x01, 0x07, 0x43] = .creditReceived (.branch 1) 5 2 1 := by decide +kernel
theorem test_frame_module_write :
    frameCommand (.branch 1) [0x10, 0x04, 0x00, 0x00, 0x10, 0x00, 1, 2, 3, 4, 0xFE, 0xC7]
      = .moduleWriteArrival 1 12 4 0x1000 [1, 2, 3, 4] := by decide +kernel
theorem test_frame_result :
    frameCommand (.branch 1) [0x30, 0x02, 0x08, 0x11, 0x22, 0x33, 0x44, 0x55, 0x66, 0x77, 0x88, 0xB0, 0xB6]
      = .branchResultArrival 1 13 0 2 8 [0x11, 0x22, 0x33, 0x44, 0x55, 0x66, 0x77, 0x88] := by decide +kernel
theorem test_frame_result_status :
    frameCommand (.branch 0) [0x35, 0x3F, 0x00, 0xF7, 0x62] = .branchResultArrival 0 5 5 63 0 [] := by decide +kernel
theorem test_frame_event : frameCommand (.branch 3) [0x47, 0xD9, 0xD3] = .eventFrame 3 3 7 := by decide +kernel
theorem test_frame_dozeAck : frameCommand (.branch 2) [0xB1, 0x56, 0x0A] = .dozeAck 2 3 := by decide +kernel
theorem test_frame_wake : frameCommand (.branch 2) [0xC0, 0x38, 0xBC] = .moduleWake 2 3 := by decide +kernel
theorem test_frame_disallowed :
    frameCommand .trunk [0x47, 0xD9, 0xD3] = .disallowedKindFrame .trunk 3 0x47 := by decide +kernel
theorem test_frame_bad_crc : frameCommand (.branch 2) [0xC0, 0x38, 0xBD] = .crcError (.branch 2) := by decide +kernel
theorem test_frame_sent_notice : (TxFrame.notice 0x20).bytes = [0x50, 0x20, 0x37, 0xD2] := by decide +kernel
theorem test_frame_sent_sync : (TxFrame.sync 11 5).bytes = [0x80, 0x0B, 0x05, 0x7B, 0x99] := by decide +kernel
theorem test_frame_sent_result :
    (TxFrame.result 12 .unclaimed []).bytes = [0x31, 0x0C, 0x00, 0x7B, 0x64] := by decide +kernel
theorem test_frame_sent_dozeReq : TxFrame.dozeReq.bytes = [0xB0, 0x46, 0x2B] := by decide +kernel

/-! ### Power and time -/

theorem test_reset_is_powerUp : powerUp 0 State.reset = State.reset := by decide +kernel

/-- Strap ID 2 gives the aperture 0xFF_FFFE_0000 (R168 and the aperture example of chapter 10). -/
theorem test_porRelease_strap : (now (exec (.porRelease true false) up)).apertureBase = 0xFFFFFE0000 := by decide +kernel
theorem test_porAssert_time : (now (exec .porAssert up)).time = 0 := by decide +kernel
theorem test_tick_wraps : (now (exec .routerTimeTick { up with time := 0xFFFFFFFF })).time = 0 := by decide +kernel
theorem test_signalPresent :
    (now (exec (.signalPresent .trunk) { up with trunk := { up.trunk with signal := false } })).trunk.signal = true := by
  decide +kernel

/-- A READ in SENT is answered UNCLAIMED when its port's signal is lost (R100, R111). -/
theorem test_signalLost_flush :
    let s := withRead 0 (.sent ⟨1, 0x100100⟩) (lookups.setSentOf 1 [0])
    (now (exec (.signalLost (.branch 1)) s)).replyLane = [0] := by decide +kernel
theorem test_signalLost_trunk : (now (exec (.signalLost .trunk) up)).trunk.retry = some 11000 := by decide +kernel

/-! ### Training and credits (05_link_training_and_credits.md, the resynchronisation example) -/

/-- Five WRITEs and three READs wait: the SYNC carries A = 11 and B = 5. -/
theorem test_crcError_sync :
    let s := { up with ingress := List.replicate 5 waitingWrite ++ List.replicate 3 waitingRead }
    (now (exec (.crcError .trunk) s)).trunk.transmitting = some (.sync 11 5) := by decide +kernel

/-- The SYNC-ACK with A = 38 is adopted, and the consumption counts 2 and 1 set CREDIT pending. -/
theorem test_syncAck_credit :
    let s := { up with trunkState := .training, trunk := { up.trunk with consumedA := 2, consumedB := 1, sentA := 12 } }
    let t := (now (exec (.syncAckReceived .trunk 5 38 0) s)).trunk
    (t.adoptedA, t.sentA, t.creditPending) = (38, 0, true) := by decide +kernel

/-- The CREDIT then carries A = 2 and B = 1. -/
theorem test_credit_transmit :
    let s := { up with trunk := { up.trunk with consumedA := 2, consumedB := 1, creditPending := true } }
    (now (exec (.creditTransmit .trunk) s)).trunk.transmitting = some (.credit 2 1) := by decide +kernel

/-- A CREDIT that reports 2 of 4 sent is valid, one that reports 5 of 4 is FRAME_INVALID (R94 and the lanes example). -/
theorem test_credit_valid :
    let s := { up with trunk := { up.trunk with sentA := 4 } }
    (now (exec (.creditReceived .trunk 5 2 9) s)).trunk.reportedA = 2 := by decide +kernel
theorem test_credit_too_high :
    let s := { up with trunk := { up.trunk with sentA := 4 } }
    (now (exec (.creditReceived .trunk 5 5 0) s)).faultLog.map (·.count) = [some (.one 0xA0)] := by decide +kernel

/-- The SYNC at 12,400 of the doze example: adopted, UP, a SYNC-ACK due; the SYNC-ACK carries A = 2 and B = 4. -/
theorem test_sync_waking :
    let b := (now (exec (.syncReceived (.branch 2) 5 4 4) (portIn 2 .waking up))).port 2
    (b.state, b.link.syncAckDue) = (.up, true) := by decide +kernel
theorem test_syncAck_transmit :
    let s := portIn 2 .up up
    let s := s.setPort 2 { s.port 2 with link := { (s.port 2).link with syncAckDue := true } }
    ((now (exec (.syncAckTransmit (.branch 2)) s)).port 2).link.transmitting = some (.syncAck 2 4) := by decide +kernel
theorem test_syncTransmit_deferred :
    let s := { State.reset with trunk := { State.reset.trunk with transmitting := none, syncDue := true } }
    (now (exec (.syncTransmit .trunk) s)).trunk.syncsSent = 2 := by decide +kernel

/-- The 33rd deadline fails the training (R91). -/
theorem test_resend_fails :
    let s := { State.reset with time := 100, trunk := { State.reset.trunk with syncsSent := 32 } }
    (now (exec (.resendDeadline .trunk) s)).trunkState = .down := by decide +kernel
theorem test_retry_trains :
    let s := portIn 1 .down up
    let s := s.setPort 1 { s.port 1 with link := { (s.port 1).link with retry := some 1000 } }
    ((now (exec (.retryDeadline (.branch 1)) s)).port 1).link.transmitting = some (.sync 2 4) := by decide +kernel
theorem test_transmitterFree : (now (exec (.transmitterFree .trunk) State.reset)).trunk.transmitting = none := by
  decide +kernel
theorem test_trunkReset : (now (exec (.trunkReset 3) { up with apertureBase := 0 })).apertureBase = 0xFFFFFC0000 := by
  decide +kernel
theorem test_disallowed :
    (now (exec (.disallowedKindFrame (.branch 1) 3 0xF0) lookups)).faultLog.map (·.kind) = [.frameInvalid] := by
  decide +kernel

/-! ### The request decoder (the lookup example of 01_address_windows.md, the stalled head of 03_the_request_decoder.md) -/

/-- Request a: the downstream address is 0x0010_0100 on port 1. -/
theorem test_decode_a :
    ((now (exec (.trunkIngressFrame (.read 10 12 16 0x40000100)) lookups)).port 1).queue =
      [⟨0x100100, 16, .read 0⟩] := by decide +kernel

/-- Request e: permission is checked before mode. -/
theorem test_decode_e :
    (now (exec (.trunkIngressFrame (.read 10 12 4 0x70000000)) lookups)).faultLog.map (·.kind) = [.notPermitted] := by
  decide +kernel

/-- Frame A at 11,000: HEAD_STALL with ticket 40, and the next frame becomes head. -/
theorem test_headWait :
    let s := { up with ingress := [waitingRead], decoder := ⟨some 1000, .noClaim, some 4⟩ }
    (now (exec .headWaitDeadline s)).faultLog.map (fun r => (r.kind, r.ticket, r.window)) =
      [(.headStall, some 40, some 4)] := by decide +kernel

/-! ### Module frames and tickets (the example of 04_ticket_table.md) -/

/-- At 1,250: branch ticket 1 names epoch 1, entry 0 is in epoch 2, so the RESULT is stale. -/
theorem test_result_stale :
    let s := lookups.setEntry 0 ⟨2, some (readX (.sent ⟨1, 0x100200⟩))⟩
    (now (exec (.branchResultArrival 1 13 0 1 8 [1, 2, 3, 4, 5, 6, 7, 8]) s)).faultLog.map (fun r => (r.source, r.count)) =
      [(.branch 1, some (.one 1))] := by decide +kernel

/-- At 1,400: branch ticket 2 matches, and the entry goes to REPLYING with OK. -/
theorem test_result_matches :
    let s := lookups.setEntry 0 ⟨2, some (readX (.sent ⟨1, 0x100200⟩))⟩
    (now (exec (.branchResultArrival 1 13 0 2 8 [1, 2, 3, 4, 5, 6, 7, 8]) s)).replyLane = [0] := by decide +kernel
theorem test_ticketDeadline :
    let s := { withRead 0 (.sent ⟨1, 0x100100⟩) lookups with time := 1100 }
    (now (exec (.ticketDeadline 0) s)).faultLog.map (fun r => (r.kind, r.ticket, r.address)) =
      [(.expired, some 5, some 0x40000100)] := by decide +kernel
theorem test_moduleWrite_offset :
    let s := portIn 1 .up { up with trunkState := .training }
    let s := s.setPort 1 { s.port 1 with upWriteEnable := true, upOffset := 0x100000000 }
    ((now (exec (.moduleWriteArrival 1 12 4 0x1000 [1, 2, 3, 4]) s)).port 1).buffer =
      [⟨0x100001000, 4, [1, 2, 3, 4]⟩] := by decide +kernel
theorem test_event_line : ((now (exec (.eventFrame 3 3 7) lookups)).line 31).state = .pending := by decide +kernel

/-! ### A doze cycle (the example of 06_branch_ports.md) -/

/-- At 12,080: DOZE-ACK with a request queued; the port is in WAKING, its wake deadline at 13,080. -/
theorem test_dozeAck_queued :
    let s := { queued 2 [readQ 5] (portIn 2 .dozeWait up) with time := 12080 }
    ((now (exec (.dozeAck 2 3) s)).port 2).wake = some 13080 := by decide +kernel
theorem test_moduleWake : ((now (exec (.moduleWake 2 3) (portIn 2 .doze up))).port 2).wakeDue = false := by decide +kernel
theorem test_idleDeadline :
    let s := portIn 2 .up up
    let s := s.setPort 2 { s.port 2 with idle := some 1000 }
    ((now (exec (.idleDeadline 2) s)).port 2).state = .dozeWait := by decide +kernel
theorem test_dozeReq :
    let s := { portIn 2 .dozeWait up with time := 12000 }
    let s := s.setPort 2 { s.port 2 with dozeReqDue := true }
    ((now (exec (.dozeReqTransmit 2) s)).port 2).answer = some 12200 := by decide +kernel
theorem test_answerDeadline :
    let s := { portIn 2 .dozeWait up with time := 12200 }
    let s := s.setPort 2 { s.port 2 with answer := some 12200 }
    (now (exec (.answerDeadline 2) s)).faultLog.map (·.kind) = [.dozeNoAnswer] := by decide +kernel

/-- At 13,080 without a SYNC: WAKE_FAIL, then FLUSH with 1 answered and 0 dropped. -/
theorem test_wakeDeadline :
    let s := { withRead 5 (.queued ⟨2, 0x100100⟩) (queued 2 [readQ 5] (portIn 2 .waking up)) with time := 13080 }
    let s := s.setPort 2 { s.port 2 with wake := some 13080 }
    (now (exec (.wakeDeadline 2) s)).faultLog.map (fun r => (r.kind, r.count)) =
      [(.wakeFail, none), (.flush, some (.pair 1 0))] := by decide +kernel
theorem test_wakeTransmit :
    let s := portIn 2 .waking up
    let s := s.setPort 2 { s.port 2 with wakeDue := true }
    ((now (exec (.wakeTransmit 2) s)).port 2).link.transmitting = some .wake := by decide +kernel

/-- At 12,401: R leaves with branch ticket 5 x 4 plus the epoch of entry 5. -/
theorem test_branchEgress :
    let s := withRead 5 (.queued ⟨2, 0x100100⟩) (queued 2 [readQ 5] (portIn 2 .up up))
    ((now (exec (.branchEgressTransmit 2) s)).port 2).link.transmitting = some (.moduleRead 21 8 0x100100) := by
  decide +kernel

/-! ### Trunk egress (the lanes example of 07_trunk_port_and_upstream_traffic.md) -/

/-- Step 3: REPLY is chosen, and entry 2 becomes FREE. -/
theorem test_replyLane :
    let s := { withRead 2 (.replying none .ok [7]) up with replyLane := [2], laneLast := .general }
    ((now (exec .replyLaneTransmit s)).entry 2).live = none := by decide +kernel

/-- Step 4: without credit the NOTICE goes ahead of the reply lane's head. -/
theorem test_general_notice :
    let s := { withRead 5 (.replying none .expired []) up with
      replyLane := [5], generalQueue := [.notice 0x20], laneLast := .reply, trunk := trained 0 0 up.trunk }
    (now (exec .generalQueueTransmit s)).trunk.transmitting = some (.notice 0x20) := by decide +kernel

/-! ### Management writes -/

/-- The bytes of a window record with both permits and enable on (R188). -/
def recordOf (m p : Byte) (base limit target : Nat) : Vector Byte 32 :=
  Vector.ofFn fun k => ([7, m, p, 0, 0, 0, 0, 0] ++ beBytes 5 base ++ [0, 0, 0] ++ beBytes 5 limit ++ [0, 0, 0] ++
    beBytes 4 target ++ [0, 0, 0, 0]).getD k.val 0

/-- The second and fourth rows of the table of whole-record writes (01_address_windows.md, section 1.4). -/
theorem test_window_accepted :
    ((now (exec (.windowRecordWrite 6 (recordOf 0 1 0x10000000 0x10FFFFFFF 0)) up)).window 6).enable = true := by
  decide +kernel
theorem test_window_invalid :
    (now (exec (.windowRecordWrite 6 (recordOf 0 1 0x10000000 0x110000FFF 0)) up)).faultLog.map
      (fun r => (r.kind, r.window)) = [(.windowInvalid, some 6)] := by decide +kernel

/-- Frame A of the aperture example of chapter 10, and its value 0x80_0000_8000. -/
theorem test_aperture_moves :
    (now (exec (.apertureBaseWrite 0x8000000000) up)).apertureBase = 0x8000000000 := by decide +kernel
theorem test_aperture_kept :
    (now (exec (.apertureBaseWrite 0x8000008000) up)).apertureBase = 0xFFFFFC0000 := by decide +kernel
theorem test_lifetime : (now (exec (.ticketLifetimeWrite 15) up)).ticketLifetime = 50000 := by decide +kernel
theorem test_headWaitLimit : (now (exec (.headWaitLimitWrite 500) up)).headWaitLimit = 500 := by decide +kernel

/-- The rows 0x0048 of 8 bytes and 0x2064 of the access forms example: discarded whole, one MGMT_FORM. -/
theorem test_form_whole :
    (now (exec (.managementWrite 0x48 (beBytes 4 10 ++ beBytes 4 500)) up)).headWaitLimit = 2000 := by decide +kernel
theorem test_form_window :
    (now (exec (.managementWrite 0x2064 (List.replicate 32 0)) up)).faultLog.map (fun r => (r.kind, r.window)) =
      [(.mgmtForm, some 3)] := by decide +kernel

/-- Frame A of the ROUTER RESET example: entry 2 is FREE and port 1 is OFF. -/
theorem test_routerReset :
    let t := now (exec .routerReset (withRead 2 (.sent ⟨1, 0⟩) lookups))
    ((t.entry 2).live, (t.port 1).state) = (none, .off) := by decide +kernel

/-- Frame C: port 1 enters DOWN and at once TRAINING. -/
theorem test_portEnable : ((now (exec (.portEnable 1 1 0 0) up)).port 1).state = .training := by decide +kernel
theorem test_interval_range :
    (now (exec (.autoDozeIntervalWrite 1 1 0 256) up)).faultLog.map (·.kind) = [.mgmtForm] := by decide +kernel
theorem test_interval_idle :
    ((now (exec (.autoDozeIntervalWrite 1 1 0 2) { lookups with time := 10000 })).port 1).idle = some 12000 := by
  decide +kernel
theorem test_dozeCommand : ((now (exec (.dozeCommand 1) lookups)).port 1).state = .dozeWait := by decide +kernel
theorem test_wakeCommand : ((now (exec (.wakeCommand 1) (portIn 1 .doze up))).port 1).state = .waking := by decide +kernel
theorem test_portReset : ((now (exec (.portResetCommand 0) lookups)).port 0).lastResult = .ignored := by decide +kernel
theorem test_lineEnable :
    (now (exec (.eventLineEnableWrite 9 1 0x20) (up.setLine 9 ⟨false, 0, .pending, 1⟩))).generalQueue =
      [.notice 0x20] := by decide +kernel
theorem test_ack :
    let t := now (exec (.ack 9) { up.setLine 9 ⟨false, 0, .again, 3⟩ with trunkState := .up })
    ((t.line 9).state, (t.line 9).arrivals) = (.pending, 0) := by decide +kernel
theorem test_clear : ((now (exec (.clear 9) (up.setLine 9 ⟨false, 0, .again, 3⟩))).line 9).state = .idle := by
  decide +kernel
theorem test_pop :
    let r : FaultRecord := ⟨.expired, .tickets, none, none, none, none, 0⟩
    (now (exec .pop { up with faultLog := [r, { r with time := 5 }] })).faultLog = [{ r with time := 5 }] := by
  decide +kernel
theorem test_dropped : (now (exec (.droppedCountClear 77) { up with dropped := 9 })).dropped = 0 := by decide +kernel
theorem test_counters :
    let t := now (exec (.counterClear .trunk 1 2 5) { up with trunk := { up.trunk with framesOut := 8, framesIn := 9 } })
    (t.trunk.framesOut, t.trunk.framesIn) = (8, 0) := by decide +kernel

/-- The identity record (R175). -/
theorem test_identity :
    recordBytes up .identity = [0xD6, 0xA3, 0x41, 0x20, 0x01, 0, 24, 16, 16, 16, 8, 8, 2, 8, 33, 16] := by decide +kernel

/-! ### Witnesses for the hypotheses of the statements

Each `witness_<name>` gives the statement `Obligations.<name>` a state and operands that meet its hypotheses, clause by
clause, at a boundary of each range. -/

theorem mem_claimants (c : Claimant) : c ∈ claimants := by
  cases c with
  | decoder => decide
  | eventUnit => decide
  | branch p => revert p; decide

/-- A link end changed. -/
def modEnd (l : Link) (f : LinkEnd → LinkEnd) (s : State) : State := s.modLink l f

/-- A port changed. -/
def modBlock (p : PortIdx) (f : PortBlock → PortBlock) (s : State) : State := s.modPort p f

theorem witness_StepRunsTheFrontCommand :
    ({ up with pending := [.pop, .routerTimeTick] } : State).pending = .pop :: [.routerTimeTick] ∧ up.pending = [] := by
  decide +kernel

theorem witness_LowPorIgnoresEveryOtherCommand :
    (powerDown up).porN = false ∧ Instr.pop ≠ .porAssert ∧ ∀ a b, Instr.pop ≠ .porRelease a b := by decide +kernel

theorem witness_TickReportAndFreeChangeOneItem :
    (up.porN = true ∧
      ∀ w h rest, up.windowState w = .drain → up.holdList w = h :: rest → 1 ≤ h.length ∧ up.headFault w h = none) ∧
    (Front.reset.cycles < 25 ∧ { Front.reset with cycles := 24 }.cycles < 25) ∧
    ((Front.reset.receiver .trunk).stopped = false ∧ (Front.reset.receiver .trunk).signal = true) ∧
    (let gone := Front.reset.setReceiver .trunk { Receiver.reset with signal := false }
     (gone.receiver .trunk).stopped = false ∧ (gone.receiver .trunk).signal = false ∧
     (gone.receiver .trunk).steady = none) ∧
    (List.replicate 49 Symbol.idle).length < 50 ∧ Symbol.violation ∉ List.replicate 49 Symbol.idle :=
  ⟨⟨by decide, fun w _ _ hd => absurd hd ((by decide +kernel : ∀ w, up.windowState w ≠ .drain) w)⟩, by decide +kernel⟩

theorem witness_TrainingDeadlinesSendSyncs :
    let s := modEnd .trunk (fun e => { e with syncsSent := 31, transmitting := none }) { State.reset with time := 100 }
    let busy := modEnd .trunk (fun e => { e with transmitting := some (.sync 16 8) }) s
    let down := modEnd .trunk (fun e => { e with retry := some 1000 }) { up with trunkState := .down }
    let branch := modEnd (.branch 3) (fun e => { e with retry := some 1000 }) (portIn 3 .down up)
    (s.porN = true ∧ s.linkTraining .trunk = true ∧ s.reached s.trunk.resend = true ∧ s.trunk.syncsSent < 32 ∧
      s.trunk.transmitting = none) ∧
    (busy.porN = true ∧ busy.linkTraining .trunk = true ∧ busy.reached busy.trunk.resend = true ∧
      busy.trunk.syncsSent < 32 ∧ busy.trunk.transmitting ≠ none) ∧
    (down.porN = true ∧ down.trunkState = .down ∧ down.reached down.trunk.retry = true ∧ down.trunk.transmitting = none) ∧
    (branch.porN = true ∧ (branch.port 3).state = .down ∧ branch.reached (branch.port 3).link.retry = true ∧
      (branch.port 3).link.transmitting = none) := by decide +kernel

theorem witness_LinkControlFramesAreTransmitted :
    let sync := modEnd .trunk (fun e => { e with syncDue := true, transmitting := none }) State.reset
    let ack := modEnd (.branch 0) (fun e => { e with syncAckDue := true }) (portIn 0 .dozeWait up)
    let credit := modEnd .trunk (fun e => { e with creditPending := true }) up
    (sync.porN = true ∧ sync.trunk.transmitting = none ∧ sync.linkTraining .trunk = true ∧ sync.trunk.syncDue = true) ∧
    (ack.porN = true ∧ (ack.port 0).link.transmitting = none ∧ ack.linkLive (.branch 0) = true ∧
      (ack.port 0).link.syncAckDue = true) ∧
    (credit.porN = true ∧ credit.trunk.transmitting = none ∧ credit.linkLive .trunk = true ∧
      credit.trunk.creditPending = true ∧ credit.trunk.syncAckDue = false) := by decide +kernel

theorem witness_DozeReqAndWakeAreTransmitted :
    let req := modBlock 3 (fun b => { b with dozeReqDue := true }) (portIn 3 .dozeWait up)
    let wake := modBlock 0 (fun b => { b with wakeDue := true }) (portIn 0 .waking up)
    let inUp := modBlock 0 (fun b => { b with wakeDue := true }) (portIn 0 .up up)
    (req.porN = true ∧ (req.port 3).link.transmitting = none ∧ (req.port 3).link.syncAckDue = false ∧
      (req.port 3).link.creditPending = false ∧ (req.port 3).state = .dozeWait ∧ (req.port 3).dozeReqDue = true) ∧
    (wake.porN = true ∧ (wake.port 0).link.transmitting = none ∧ wake.linkLive (.branch 0) = false ∧
      (wake.port 0).state = .waking ∧ (wake.port 0).wakeDue = true) ∧
    (inUp.porN = true ∧ (inUp.port 0).link.transmitting = none ∧ (inUp.port 0).link.syncAckDue = false ∧
      (inUp.port 0).link.creditPending = false ∧ (inUp.port 0).state = .up ∧ (inUp.port 0).wakeDue = true) ∧
    (let later := modEnd (.branch 3) (fun e => { e with syncAckDue := true }) req
     later.porN = true ∧ (later.port 3).link.transmitting = none ∧ (later.port 3).state = .dozeWait ∧
      (later.port 3).dozeReqDue = true ∧
      ¬((later.port 3).link.syncAckDue = false ∧ (later.port 3).link.creditPending = false)) ∧
    (let later := modEnd (.branch 0) (fun e => { e with creditPending := true }) inUp
     later.porN = true ∧ (later.port 0).link.transmitting = none ∧ (later.port 0).state = .up ∧
      (later.port 0).wakeDue = true ∧
      ¬((later.port 0).link.syncAckDue = false ∧ (later.port 0).link.creditPending = false)) := by
  decide +kernel

theorem witness_BranchEgressTransmitsItsHead :
    let s := withRead 15 (.queued ⟨1, 0x100100⟩) (queued 1 [writeQ, readQ 15] (portIn 1 .up up))
    let r := queued 1 [readQ 15] s
    (s.porN = true ∧ (s.port 1).state = .up ∧ (s.port 1).queue = writeQ :: [readQ 15] ∧
      (s.port 1).link.transmitting = none ∧ (s.port 1).link.syncAckDue = false ∧
      (s.port 1).link.creditPending = false ∧ (s.port 1).wakeDue = false ∧ writeQ.body = .write [1, 2, 3, 4] ∧
      (s.port 1).link.adoptedA + (s.port 1).link.reportedA - (s.port 1).link.sentA ≠ 0) ∧
    (r.porN = true ∧ (r.port 1).state = .up ∧ (r.port 1).queue = readQ 15 :: [] ∧
      (r.port 1).link.transmitting = none ∧ (r.port 1).link.syncAckDue = false ∧
      (r.port 1).link.creditPending = false ∧ (r.port 1).wakeDue = false ∧ (readQ 15).body = .read 15 ∧
      (r.entry 15).live = some (readX (.queued ⟨1, 0x100100⟩)) ∧
      (r.port 1).link.adoptedB + (r.port 1).link.reportedB - (r.port 1).link.sentB ≠ 0) := by decide +kernel

theorem witness_ReplyLaneTransmitsItsHead :
    let s := { withRead 2 (.replying none .ok [7]) up with replyLane := [2] }
    let both := { s with generalQueue := [.notice 1], laneLast := .reply }
    (s.porN = true ∧ s.trunkState = .up ∧ s.trunk.transmitting = none ∧ s.trunk.syncAckDue = false ∧
      s.trunk.creditPending = false ∧ s.replyLane = 2 :: [] ∧
      (s.entry 2).live = some (readX (.replying none .ok [7])) ∧
      s.trunk.adoptedA + s.trunk.reportedA - s.trunk.sentA ≠ 0 ∧ s.generalQueue = [] ∧ s.laneLast = .general) ∧
    (both.porN = true ∧ both.trunkState = .up ∧ both.trunk.transmitting = none ∧ both.replyLane = 2 :: [] ∧
      both.trunk.adoptedA + both.trunk.reportedA - both.trunk.sentA ≠ 0 ∧ both.generalQueue ≠ [] ∧
      both.laneLast = .reply) := by decide +kernel

theorem witness_GeneralQueueTransmitsItsHead :
    let free := fun (f : GeneralFrame) (s : State) => s.porN = true ∧ s.trunkState = .up ∧ s.trunk.transmitting = none ∧
      s.trunk.syncAckDue = false ∧ s.trunk.creditPending = false ∧ s.generalQueue = f :: []
    let credit := fun (s : State) => s.trunk.adoptedA + s.trunk.reportedA - s.trunk.sentA
    let w : UpWrite := ⟨0, 1, [9]⟩
    let n := { up with generalQueue := [.notice 7], trunk := trained 0 0 up.trunk, replyLane := [3] }
    let o := { up with generalQueue := [.write w] }
    let r := { up with generalQueue := [.result 63 .ok []], laneLast := .reply, replyLane := [3] }
    let turn := { r with laneLast := .general }
    (free (.notice 7) n ∧ credit n = 0) ∧ (free (.write w) o ∧ o.replyLane = [] ∧ credit o ≠ 0) ∧
    (free (.result 63 .ok []) r ∧ r.laneLast = .reply ∧ credit r ≠ 0) ∧
    (free (.result 63 .ok []) turn ∧ turn.replyLane ≠ [] ∧ credit turn ≠ 0 ∧ turn.laneLast = .general) := by
  decide +kernel

theorem witness_FramesOutsideUpAreCountedAtMost :
    let down := { up with trunkState := .down }
    let training := { up with trunkState := .training }
    frameBody (.trunkReset 3) = some (.trunk, 3, [0xF0]) ∧ frameBody (.trunkReset 2) = some (.trunk, 2, [0xF0]) ∧
    frameBody (.trunkReset 74) = some (.trunk, 74, [0xF0]) ∧ frameBody (.eventFrame 1 73 0) = some (.branch 1, 73, [0x40]) ∧
    down.rxPhase .trunk = .deaf ∧ training.rxPhase .trunk = .training ∧
    (portIn 1 .waking up).rxPhase (.branch 1) = .waking ∧
    (∀ z a b, Instr.trunkReset 3 ≠ .syncReceived .trunk z a b) ∧
    (∀ z a b, Instr.trunkReset 3 ≠ .syncAckReceived .trunk z a b) ∧
    (∀ z a b, Instr.eventFrame 1 73 0 ≠ .syncReceived (.branch 1) z a b) ∧
    ¬training.frameMeets (.syncReceived .trunk 5 65 0) :=
  ⟨by decide +kernel, by decide +kernel, by decide +kernel, by decide +kernel, by decide +kernel, by decide +kernel,
    by decide +kernel, fun _ _ _ => nofun, fun _ _ _ => nofun, fun _ _ _ => nofun, fun h => absurd h.2 (by decide)⟩

theorem witness_InvalidFramesAreDiscardedWithARecord :
    frameBody (.trunkReset 73) = some (.trunk, 73, 0xF0 :: []) ∧ up.rxPhase .trunk = .live ∧
    ¬up.frameMeets (.trunkReset 73) ∧ frameBody (.dozeAck 1 3) = some (.branch 1, 3, 0xB1 :: []) ∧
    (portIn 1 .doze up).rxPhase (.branch 1) = .doze ∧
    (∀ z a b, Instr.dozeAck 1 3 ≠ .syncReceived (.branch 1) z a b) ∧ (∀ p z, Instr.dozeAck 1 3 ≠ .moduleWake p z) :=
  ⟨by decide +kernel, by decide +kernel, fun h => absurd (show 73 = 3 from h) (by decide), by decide +kernel,
    by decide +kernel, fun _ _ _ => nofun, fun _ _ => nofun⟩

theorem witness_CrcErrorResynchronises :
    ({ up with trunkState := .down } : State).rxPhase .trunk = .deaf ∧ State.reset.rxPhase .trunk = .training ∧
    (portIn 1 .doze up).rxPhase (.branch 1) = .doze ∧ (portIn 1 .waking up).rxPhase (.branch 1) = .waking ∧
    (portIn 1 .dozeWait up).rxPhase (.branch 1) = .live ∧ up.rxPhase .trunk = .live ∧ up.trunk.transmitting = none ∧
    (modEnd .trunk (fun e => { e with transmitting := some (.notice 1) }) up).rxPhase .trunk = .live := by decide +kernel

theorem witness_SyncTrainsTheLink :
    (64 : Byte).toNat ≤ 64 ∧ State.reset.rxPhase .trunk = .training ∧ up.rxPhase .trunk = .live ∧ (32 : Byte).toNat ≤ 32 ∧
    (portIn 3 .waking up).rxPhase (.branch 3) ≠ .deaf ∧ ((portIn 3 .waking up).port 3).state ≠ .up ∧
    (portIn 0 .up up).rxPhase (.branch 0) ≠ .deaf ∧ ((portIn 0 .up up).port 0).state = .up := by decide +kernel

theorem witness_SyncAckCompletesTheTraining :
    (64 : Byte).toNat ≤ 64 ∧ State.reset.rxPhase .trunk = .training ∧ (32 : Byte).toNat ≤ 32 ∧
    (portIn 3 .training up).rxPhase (.branch 3) = .training ∧ up.rxPhase .trunk = .live ∧
    up.frameMeets (.syncAckReceived .trunk 5 64 255) :=
  ⟨by decide, by decide +kernel, by decide, by decide +kernel, by decide +kernel, by decide, by decide⟩

theorem witness_CreditSetsTheReportedConsumption :
    let s := modEnd .trunk (fun e => { e with sentA := 4 }) up
    let t := modEnd (.branch 1) (fun e => { e with sentA := 2, sentB := 255, reportedA := 254 }) (portIn 1 .dozeWait up)
    s.rxPhase .trunk = .live ∧ (4 - s.trunk.reportedA).toNat ≤ (s.trunk.sentA - s.trunk.reportedA).toNat ∧
    t.rxPhase (.branch 1) = .live ∧
    (2 - (t.port 1).link.reportedA).toNat ≤ ((t.port 1).link.sentA - (t.port 1).link.reportedA).toNat ∧
    (255 - (t.port 1).link.reportedB).toNat ≤ ((t.port 1).link.sentB - (t.port 1).link.reportedB).toNat := by decide +kernel

theorem witness_TrunkResetResetsTheRouter : up.rxPhase .trunk = .live := by decide +kernel

theorem witness_ModuleWriteIsBufferedOrDiscarded :
    let w : UpWrite := ⟨0, 1, [9]⟩
    let s := portIn 1 .up up
    let on := fun (o : HostAddr) (n : List UpWrite) => modBlock 1 (fun b => { b with
      upWriteEnable := true, upOffset := o, buffer := n }) s
    s.rxPhase (.branch 1) = .live ∧ 1 ≤ (1 : Byte).toNat ∧ (64 : Byte).toNat ≤ 64 ∧
    2 ≤ ((on 0 [w, w]).port 1).buffer.length ∧ (s.port 1).buffer.length < 2 ∧ (s.port 1).upWriteEnable = false ∧
    (((on 0xFFFFFFFFFF [w]).port 1).upWriteEnable = true ∧ ((on 0xFFFFFFFFFF [w]).port 1).buffer.length < 2 ∧
      0xFFFFFFFFFF < (1 : ModuleAddr).toNat + ((on 0xFFFFFFFFFF [w]).port 1).upOffset.toNat + (1 : Byte).toNat - 1 ∧
      (0 : ModuleAddr).toNat + ((on 0xFFFFFFFFFF [w]).port 1).upOffset.toNat + (1 : Byte).toNat - 1 ≤ 0xFFFFFFFFFF) := by
  decide +kernel

theorem witness_MatchedResultIsRelayed :
    let s := withRead 15 (.sent ⟨1, 0x100100⟩) (portIn 1 .up up)
    s.rxPhase (.branch 1) = .live ∧ (8 : Byte).toNat ≤ 64 ∧ (List.replicate 8 (0 : Byte)).length = (8 : Byte).toNat ∧
    (s.entry 15).live = some (readX (.sent ⟨1, 0x100100⟩)) ∧
    (61 : Byte).toNat = 4 * (15 : EntryIdx).val + (s.entry 15).epoch.toNat ∧
    (8 : Byte).toNat = (readX (.sent ⟨1, 0x100100⟩)).length ∧
    (7 : Byte).toNat ≠ (readX (.sent ⟨1, 0x100100⟩)).length ∧ 4 ≤ (4 : BitVec 3).toNat := by decide +kernel

theorem witness_WrongResultLengthIsDamaged :
    let s := withRead 0 (.sent ⟨1, 0x100100⟩) (portIn 1 .dozeWait up)
    s.rxPhase (.branch 1) = .live ∧ (64 : Byte).toNat ≤ 64 ∧ (List.replicate 64 (0 : Byte)).length = (64 : Byte).toNat ∧
    (s.entry 0).live = some (readX (.sent ⟨1, 0x100100⟩)) ∧
    (1 : Byte).toNat = 4 * (0 : EntryIdx).val + (s.entry 0).epoch.toNat ∧
    (64 : Byte).toNat ≠ (readX (.sent ⟨1, 0x100100⟩)).length ∧ s.faultLog.length < 16 := by decide +kernel

theorem witness_UnmatchedResultIsStale :
    let s := portIn 1 .up up
    s.rxPhase (.branch 1) = .live ∧ (63 : Byte).toNat ≤ 63 ∧ (0 : Byte).toNat ≤ 64 ∧
    ([] : List Byte).length = (0 : Byte).toNat ∧ s.faultLog.length < 16 ∧
    ∀ (i : EntryIdx) (v : Live) (r : Route), (63 : Byte).toNat = 4 * i.val + (s.entry i).epoch.toNat →
      (s.entry i).live = some v → v.stage = .sent r → r.port ≠ 1 := by
  refine ⟨by decide +kernel, by decide, by decide, by decide, by decide +kernel, fun i v _ _ h => ?_⟩
  have e : ∀ i, ((portIn 1 .up up).entry i).live = none := by decide +kernel
  simp [e i] at h

theorem witness_EventRaisesItsLine :
    (portIn 3 .up up).rxPhase (.branch 3) = .live ∧ (31 : LineIdx).val = 8 * (3 : PortIdx).val + (7 : BitVec 3).toNat := by
  decide +kernel

theorem witness_DozeAckAndModuleWake :
    let s := portIn 2 .dozeWait up
    s.rxPhase (.branch 2) ≠ .deaf ∧ (s.port 2).state = .dozeWait ∧ (s.port 2).queue = [] ∧
    ((queued 2 [writeQ] s).port 2).queue ≠ [] ∧ (portIn 2 .up up).rxPhase (.branch 2) ≠ .deaf ∧
    ((portIn 2 .up up).port 2).state = .up ∧ (portIn 2 .doze up).rxPhase (.branch 2) ≠ .deaf ∧
    ((portIn 2 .doze up).port 2).state = .doze := by decide +kernel

theorem witness_TicketDeadlineExpiresTheRead :
    let at' := fun (st : Stage) => { withRead 15 st (portIn 1 .up up) with time := 1100 }
    ∀ st ∈ [Stage.sent ⟨1, 0⟩, .queued ⟨1, 0⟩, .held, .replying none .ok []], (at' st).porN = true ∧
      ((at' st).entry 15).live = some (readX st) ∧ (at' st).reached (some (readX st).deadline) = true ∧
      (readX st).window = some 2 := by decide +kernel

theorem witness_HeadWaitDeadlineDiscardsTheHead :
    let s := { up with ingress := [waitingRead, waitingWrite], decoder := ⟨some 1000, .noClaim, some 4⟩ }
    s.porN = true ∧ s.ingress = waitingRead :: [waitingWrite] ∧ s.reached s.decoder.deadline = true ∧
    ({ s with ingress := [waitingRead] } : State).ingress = waitingRead :: [] := by decide +kernel

theorem witness_AnswerAndIdleDeadlines :
    let a := modBlock 1 (fun b => { b with answer := some 1000 }) (portIn 1 .dozeWait up)
    let i := modBlock 1 (fun b => { b with idle := some 1000 }) (portIn 1 .up up)
    (a.porN = true ∧ (a.port 1).state = .dozeWait ∧ a.reached (a.port 1).answer = true) ∧
    (i.porN = true ∧ (i.port 1).state = .up ∧ i.reached (i.port 1).idle = true) := by decide +kernel

theorem witness_BranchFailuresEnterDown :
    let up1 := portIn 1 .up up
    let training := modEnd (.branch 1) (fun e => { e with resend := some 1000, syncsSent := 32 }) (portIn 1 .training up)
    let waking := modBlock 1 (fun b => { b with wake := some 1000 }) (portIn 1 .waking up)
    (up1.porN = true ∧ (up1.port 1).link.signal = true ∧ (up1.port 1).state ≠ .off ∧ (up1.port 1).state ≠ .down) ∧
    ((up.port 1).link.signal = true ∧ (up.port 1).state = .off) ∧
    ((training.port 1).state = .training ∧ training.reached (training.port 1).link.resend = true ∧
      32 ≤ (training.port 1).link.syncsSent) ∧
    ((waking.port 1).state = .waking ∧ waking.reached (waking.port 1).wake = true) := by decide +kernel

/-- A port in UP with a READ and a WRITE queued, a READ at the module and a WRITE buffered; the general queue is full. -/
def working : State :=
  let s := withRead 1 (.sent ⟨1, 0x100200⟩) (withRead 0 (.queued ⟨1, 0x100100⟩) (portIn 1 .up up))
  let s := s.setEntry 1 ⟨1, some { readX (.sent ⟨1, 0x100200⟩) with ticket := 6 }⟩
  { modBlock 1 (fun b => { b with queue := [readQ 0, writeQ], buffer := [⟨0, 1, [9]⟩] }) (s.setSentOf 1 [1]) with
    generalQueue := List.replicate 8 (.notice 1), pending := [.portResetCommand 1, .signalLost (.branch 1)] }

theorem working_placed : working.placed := by
  unfold State.placed
  decide +kernel

theorem working_admitted : working.admitted := fun h => absurd h (by decide +kernel)

/-- Window 2 drains; behind the READ at its head stands a WRITE that leaves the window. -/
def uncovered : State :=
  (withRead 0 .held lookups).setHoldList 2 [⟨0x40000100, 8, .read 0⟩, ⟨0x4000FFFC, 8, .write [1, 2, 3, 4, 5, 6, 7, 8]⟩]

theorem uncovered_placed : uncovered.placed := by
  unfold State.placed
  decide +kernel

theorem admitted_of_claimants {s : State} (h : ∀ c ∈ claimants, s.claims c = false) : s.admitted :=
  fun _ c => h c (mem_claimants c)

theorem uncovered_admitted : uncovered.admitted := admitted_of_claimants (by decide +kernel)

/-- Port 1 is lost: the READ at the head of its draining window 2 ends UNCLAIMED, then the WRITE that leaves the window, and
their records follow the cause; nothing was queued, so there is no FLUSH (R28, R29, R35, R111). -/
theorem test_flush_ends_draining_lists :
    let t := portDown .down (some .signalLost) 1 uncovered
    t.faultLog.map (fun r => (r.kind, r.window, r.ticket)) =
      [(.signalLost, none, none), (.portUnavailable, some 2, some 5), (.crossing, some 2, none)] ∧
    t.replyLane = [0] ∧ t.holdList 2 = [] ∧
    t.entry 0 = ⟨1, some { readX .held with stage := .replying none .unclaimed [] }⟩ := by decide +kernel

theorem witness_FlushEndsThePortsTraffic :
    (working.placed ∧ working.admitted ∧ (working.port 1).state ≠ .off ∧ (working.port 1).state ≠ .down) ∧
    (uncovered.placed ∧ uncovered.admitted ∧ (uncovered.port 1).state ≠ .off ∧ (uncovered.port 1).state ≠ .down) ∧
    (uncovered.windowState 2 = .drain ∧ (uncovered.window 2).portIdx = 1 ∧
      uncovered.holdList 2 = ⟨0x40000100, 8, .read 0⟩ :: (uncovered.holdList 2).tail ∧
      (uncovered.entry 0).live = some (readX .held) ∧ (uncovered.entry 1).worksFor 1 = false) ∧
    ((working.entry 1).worksFor 1 = true ∧ (working.entry 1).live ≠ none) :=
  ⟨⟨working_placed, working_admitted, by decide +kernel, by decide +kernel⟩,
    ⟨uncovered_placed, uncovered_admitted, by decide +kernel, by decide +kernel⟩, by decide +kernel⟩

/-- The WRITE that trunk loss itself uncovers stays in its list, and the record of the cause, with one entry freed, stands
alone (R6, R37, R130, R161). -/
theorem test_trunkLoss_records :
    let t := now (exec (.signalLost .trunk) uncovered)
    (t.faultLog.map (fun r => (r.kind, r.count)), (t.holdList 2).length) = ([(.signalLost, some (.one 1))], 1) := by
  decide +kernel

/-- At the next tick it ends with its own record (R28; the instant: log 16). -/
theorem test_tick_after_trunkLoss :
    let t := now (exec .routerTimeTick (now (exec (.signalLost .trunk) uncovered)))
    (t.faultLog.map (fun r => (r.kind, r.time)), t.holdList 2) = ([(.signalLost, 1000), (.crossing, 1001)], []) := by
  decide +kernel

/-- Port 1's queue is full, a READ at its head; window 2 drains to it, two WRITEs held, the second leaving the window. -/
def refilled : State :=
  (queued 1 (readQ 0 :: List.replicate 7 writeQ) (withRead 0 (.queued ⟨1, 0x100100⟩) lookups)).setHoldList 2
    [⟨0x40000010, 4, .write [1, 2, 3, 4]⟩, ⟨0x4000FFFC, 8, .write [1, 2, 3, 4, 5, 6, 7, 8]⟩]

/-- Trunk loss frees a slot of port 1; the WRITE at the head of window 2 takes it, translated (target base 0x100000), and the
next head, which leaves the window, is examined then and ends before the cause is recorded (R27, R30, R34; log 16). -/
theorem test_trunkLoss_examines_behind_a_release :
    let t := now (exec (.signalLost .trunk) refilled)
    (t.port 1).queue = List.replicate 7 writeQ ++ [⟨0x100010, 4, .write [1, 2, 3, 4]⟩] ∧ t.holdList 2 = [] ∧
    t.faultLog.map (·.kind) = [.crossing, .signalLost] := by decide +kernel

theorem witness_TrunkLossFreesEverything :
    let training := modEnd .trunk (fun e => { e with syncsSent := 32 }) { State.reset with time := 100 }
    (working.porN = true ∧ working.trunk.signal = true ∧ working.trunkState ≠ .down ∧ working.faultLog.length < 16 ∧
      ∀ w, working.windowState w ≠ .drain) ∧
    (uncovered.porN = true ∧ uncovered.trunk.signal = true ∧ uncovered.trunkState ≠ .down ∧
      uncovered.windowState 2 = .drain ∧ uncovered.faultLog.length < 16) ∧
    (refilled.porN = true ∧ refilled.trunk.signal = true ∧ refilled.trunkState ≠ .down ∧
      refilled.windowState 2 = .drain ∧ (refilled.window 2).portIdx = 1 ∧ (refilled.port 1).queue.length = 8) ∧
    (let full := { uncovered with faultLog := List.replicate 16 ⟨.expired, .tickets, none, none, none, none, 0⟩ }
     full.porN = true ∧ full.trunk.signal = true ∧ full.trunkState ≠ .down ∧ 16 ≤ full.faultLog.length) ∧
    ({ up with trunkState := .down } : State).trunkState = .down ∧
    (training.porN = true ∧ training.trunkState = .training ∧ training.reached training.trunk.resend = true ∧
      32 ≤ training.trunk.syncsSent) := by decide +kernel

theorem witness_HostFramesQueueBehindTheHead :
    let reads := fun n => { up with ingress := List.replicate n waitingRead }
    let writes := fun n => { up with ingress := List.replicate n waitingWrite }
    (reads 7).rxPhase .trunk = .live ∧ (reads 7).ingress ≠ [] ∧ (reads 7).ingressCount true < 8 ∧
    8 ≤ (reads 8).ingressCount true ∧ (writes 15).ingressCount false < 16 ∧ 16 ≤ (writes 16).ingressCount false := by
  decide +kernel

theorem witness_FailedDecodesAreAnsweredOrDiscarded :
    lookups.hostReady ∧ (withRead 6 .held lookups).hostReady ∧ (withRead 6 .held lookups).ticketOf 6 = some 5 ∧
    (0x4000FFF8 : HostAddr).toNat < lookups.apertureBase.toNat ∧ lookups.matchedBy 0x4000FFF8 (some 2) ∧
    lookups.matchedBy 0x100000000 none ∧
    lookups.decodeFault true 0x4000FFF8 9 (some 2) = some (.crossing, .refused) ∧
    lookups.decodeFault false 0x4000FFF8 64 (some 2) = some (.crossing, .refused) ∧
    lookups.decodeFault true 0x100000000 1 none = some (.noWindow, .unclaimed) ∧
    (∀ j, lookups.ticketOf j ≠ some 5) ∧ (lookups.entry 0).live = none ∧ ∀ j, j < 0 → (lookups.entry j).live ≠ none :=
  ⟨hostReady_of_quiet (by decide +kernel), hostReady_of_quiet (by decide +kernel), by decide +kernel, by decide +kernel,
    matchedBy_lookup (by decide +kernel), matchedBy_lookup (by decide +kernel), by decide +kernel, by decide +kernel,
    by decide +kernel, by decide +kernel, by decide +kernel, by decide +kernel⟩

/-- Window 2 in HOLD with `n` requests held. -/
def holding (n : Nat) : State :=
  (lookups.setWindow 2 (win .hold 1 0x40000000 0x4000FFFF 0x100000)).setHoldList 2
    (List.replicate n ⟨0x40000000, 4, .write [1, 2, 3, 4]⟩)

theorem witness_HeldRequestsJoinTheirList :
    (holding 15).hostReady ∧ (0x4000FFF8 : HostAddr).toNat < (holding 15).apertureBase.toNat ∧
    (holding 15).matchedBy 0x4000FFF8 (some 2) ∧ ((holding 15).window 2).mode = .hold ∧ (holding 15).heldTotal < 16 ∧
    (holding 15).decodeFault true 0x4000FFF8 8 (some 2) = none ∧
    (holding 15).decodeFault false 0x4000FFF8 8 (some 2) = none ∧ (∀ j, (holding 15).ticketOf j ≠ some 63) ∧
    ((holding 15).entry 0).live = none ∧ ∀ j, j < 0 → ((holding 15).entry j).live ≠ none :=
  ⟨hostReady_of_quiet (by decide +kernel), by decide +kernel, matchedBy_lookup (by decide +kernel), by decide +kernel,
    by decide +kernel, by decide +kernel, by decide +kernel, by decide +kernel, by decide +kernel, by decide +kernel⟩

theorem witness_PassedRequestsJoinTheEgressQueue :
    let s := queued 1 (List.replicate 7 writeQ) lookups
    s.hostReady ∧ (0x40000000 : HostAddr).toNat < s.apertureBase.toNat ∧ s.matchedBy 0x40000000 (some 2) ∧
    (s.window 2).mode = .pass ∧ s.holdList 2 = [] ∧ (s.window 2).port.toNat = (1 : PortIdx).val ∧
    (s.port 1).queue.length < 8 ∧ s.decodeFault true 0x40000000 64 (some 2) = none ∧
    s.decodeFault false 0x40000000 1 (some 2) = none ∧ (∀ j, s.ticketOf j ≠ some 0) ∧ (s.entry 0).live = none ∧
    ∀ j, j < 0 → (s.entry j).live ≠ none :=
  ⟨hostReady_of_quiet (by decide +kernel), by decide +kernel, matchedBy_lookup (by decide +kernel), by decide +kernel,
    by decide +kernel, by decide +kernel, by decide +kernel, by decide +kernel, by decide +kernel, by decide +kernel,
    by decide +kernel, by decide +kernel⟩

theorem witness_ManagementReadIsAnswered :
    let s := { up with generalQueue := List.replicate 7 (.notice 1) }
    s.hostReady ∧ s.generalQueue.length < 8 ∧ (∀ j, s.ticketOf j ≠ some 0) ∧
    (0x22E0 % 4 = 0 ∧ 32 % 4 = 0 ∧ (RecordId.window 23).offset ≤ 0x22E0 ∧
      0x22E0 + 32 ≤ (RecordId.window 23).offset + (RecordId.window 23).size) ∧ 0xFFFE % 4 ≠ 0 ∧ 0xFFFE < 0x10000 :=
  ⟨hostReady_of_quiet (by decide +kernel), by decide +kernel, by decide +kernel, by decide, by decide, by decide⟩

/-- Every ticket entry is live. -/
def fullTable : State := { lookups with entries := Vector.replicate 16 ⟨1, some (readX (.sent ⟨2, 0⟩))⟩ }

theorem witness_HeadWaitsForItsResources :
    let general := { lookups with generalQueue := List.replicate 8 (.notice 1) }
    let queue := queued 1 (List.replicate 8 writeQ) lookups
    (general.hostReady ∧ 8 ≤ general.generalQueue.length ∧ ∀ j, general.ticketOf j ≠ some 0) ∧
    (fullTable.hostReady ∧ fullTable.matchedBy 0x40000000 (some 2) ∧ (∀ i, (fullTable.entry i).live ≠ none) ∧
      ∀ j, fullTable.ticketOf j ≠ some 0) ∧
    ((holding 16).hostReady ∧ (holding 16).matchedBy 0x40000000 (some 2) ∧
      (holding 16).decodeFault true 0x40000000 64 (some 2) = none ∧
      (holding 16).decodeFault false 0x40000000 64 (some 2) = none ∧ ((holding 16).entry 15).live = none ∧
      ((holding 16).window 2).mode = .hold ∧ 16 ≤ (holding 16).heldTotal) ∧
    (queue.hostReady ∧ queue.matchedBy 0x40000000 (some 2) ∧ queue.decodeFault true 0x40000000 1 (some 2) = none ∧
      queue.decodeFault false 0x40000000 1 (some 2) = none ∧ (queue.entry 15).live = none ∧ (queue.window 2).mode = .pass ∧
      queue.holdList 2 = [] ∧ (queue.window 2).port.toNat = (1 : PortIdx).val ∧ 8 ≤ (queue.port 1).queue.length) ∧
    (0x40000000 : HostAddr).toNat < up.apertureBase.toNat :=
  ⟨⟨hostReady_of_quiet (by decide +kernel), by decide +kernel, by decide +kernel⟩,
    ⟨hostReady_of_quiet (by decide +kernel), matchedBy_lookup (by decide +kernel), by decide +kernel, by decide +kernel⟩,
    ⟨hostReady_of_quiet (by decide +kernel), matchedBy_lookup (by decide +kernel), by decide +kernel, by decide +kernel,
      by decide +kernel, by decide +kernel, by decide +kernel⟩,
    ⟨hostReady_of_quiet (by decide +kernel), matchedBy_lookup (by decide +kernel), by decide +kernel, by decide +kernel,
      by decide +kernel, by decide +kernel, by decide +kernel, by decide +kernel, by decide +kernel⟩, by decide +kernel⟩

/-- A READ for window 2 waits at the head for a slot of port 1's full queue, with the general queue full. -/
def stalled : State :=
  { queued 1 (List.replicate 8 writeQ) lookups with
    ingress := [⟨0x40000100, 4, .read 40⟩], decoder := ⟨some 3000, .egress 1, some 2⟩, pending := [.headWaitDeadline] }

theorem stalled_headWaits : stalled.headWaits :=
  show stalled.canTake _ (stalled.fate _) = false ∧ stalled.decoder.claim = stalled.claimFor _ (stalled.fate _) ∧
    stalled.decoder.lastWindow = (stalled.fate _).window by decide +kernel

/-- A head that is taken, for each of the clauses: held, placed, failed, and a management WRITE. -/
theorem witness_HeadWaitsForItsResources_taken :
    let hold := { holding 15 with ingress := [⟨0x4000FFC0, 64, .read 63⟩, waitingWrite] }
    let holdWrite := { holding 15 with ingress := [waitingWrite] }
    let pass := { queued 1 (List.replicate 7 writeQ) lookups with ingress := [⟨0x4000FFFF, 1, .read 0⟩] }
    let passWrite := { pass with ingress := [waitingWrite] }
    let none' := { lookups with ingress := [⟨0x100000000, 64, .read 0⟩, waitingRead] }
    let failed := { lookups with ingress := [⟨0x4000FFFD, 4, .write [1, 2, 3, 4]⟩] }
    let manage := { lookups with ingress := [⟨0xFFFFFCFFFF, 1, .write [1]⟩] }
    (stalled.admitted ∧ stalled.headWaits) ∧
    (hold.admitted ∧ hold.matchedBy 0x4000FFC0 (some 2) ∧ hold.decodeFault true 0x4000FFC0 64 (some 2) = none ∧
      (∀ j, hold.ticketOf j ≠ some 63) ∧ (hold.entry 0).live = none ∧ (hold.window 2).mode = .hold ∧ hold.heldTotal < 16) ∧
    (holdWrite.admitted ∧ holdWrite.matchedBy 0x40000000 (some 2) ∧
      holdWrite.decodeFault false 0x40000000 4 (some 2) = none ∧ (holdWrite.window 2).mode = .hold ∧
      holdWrite.heldTotal < 16) ∧
    (pass.admitted ∧ pass.matchedBy 0x4000FFFF (some 2) ∧ pass.decodeFault true 0x4000FFFF 1 (some 2) = none ∧
      (∀ j, pass.ticketOf j ≠ some 0) ∧ (pass.entry 0).live = none ∧ (pass.window 2).mode = .pass ∧ pass.holdList 2 = [] ∧
      (pass.window 2).port.toNat = (1 : PortIdx).val ∧ (pass.port 1).queue.length < 8) ∧
    (passWrite.admitted ∧ passWrite.matchedBy 0x40000000 (some 2) ∧
      passWrite.decodeFault false 0x40000000 4 (some 2) = none ∧ (passWrite.port 1).queue.length < 8) ∧
    (none'.admitted ∧ none'.matchedBy 0x100000000 none ∧
      none'.decodeFault true 0x100000000 64 none = some (.noWindow, .unclaimed) ∧ (∀ j, none'.ticketOf j ≠ some 0) ∧
      (none'.entry 0).live = none) ∧
    (failed.admitted ∧ failed.matchedBy 0x4000FFFD (some 2) ∧
      failed.decodeFault false 0x4000FFFD 4 (some 2) = some (.crossing, .refused)) ∧
    (manage.admitted ∧ ¬((0xFFFFFCFFFF : HostAddr).toNat < manage.apertureBase.toNat ∨
      manage.apertureBase.toNat + 0xFFFF < (0xFFFFFCFFFF : HostAddr).toNat)) :=
  ⟨⟨admitted_of_claimants (by decide +kernel), stalled_headWaits⟩,
    ⟨admitted_of_claimants (by decide +kernel), matchedBy_lookup (by decide +kernel), by decide +kernel⟩,
    ⟨admitted_of_claimants (by decide +kernel), matchedBy_lookup (by decide +kernel), by decide +kernel⟩,
    ⟨admitted_of_claimants (by decide +kernel), matchedBy_lookup (by decide +kernel), by decide +kernel⟩,
    ⟨admitted_of_claimants (by decide +kernel), matchedBy_lookup (by decide +kernel), by decide +kernel⟩,
    ⟨admitted_of_claimants (by decide +kernel), matchedBy_lookup (by decide +kernel), by decide +kernel⟩,
    ⟨admitted_of_claimants (by decide +kernel), matchedBy_lookup (by decide +kernel), by decide +kernel⟩,
    ⟨admitted_of_claimants (by decide +kernel), by decide +kernel⟩⟩

/-- A management READ of the last window record that is granted the last slot of the general queue. -/
theorem witness_HeadWaitsForItsResources_granted :
    let s := { up with
      ingress := [⟨0xFFFFFC22E0, 32, .read 40⟩, waitingWrite], decoder := ⟨none, .general, none⟩
      generalQueue := List.replicate 7 (.notice 1) }
    s.decoder.claim = .general ∧ s.trunkState = .up ∧ s.generalQueue.length < 8 ∧
    (∀ c, c ≠ .decoder → s.claims c = false) ∧ (∀ j, s.ticketOf j ≠ some 40) ∧
    s.apertureBase.toNat ≤ (0xFFFFFC22E0 : HostAddr).toNat ∧
    (RecordId.window 23).offset ≤ (0xFFFFFC22E0 : HostAddr).toNat - s.apertureBase.toNat ∧
    (0xFFFFFC22E0 : HostAddr).toNat - s.apertureBase.toNat + 32 ≤ (RecordId.window 23).offset + (RecordId.window 23).size := by
  refine ⟨by decide +kernel, by decide +kernel, by decide +kernel, fun c => ?_, by decide +kernel⟩
  exact (by decide +kernel : ∀ c ∈ claimants, c ≠ .decoder → State.claims _ c = false) c (mem_claimants c)

/-- The round-robin example of chapter 7: branches 0 and 2 and the event unit claim, branch 0 was served last. -/
def claiming : State :=
  let s := modBlock 0 (fun b => { b with buffer := [⟨0, 1, [9]⟩] }) up
  let s := modBlock 2 (fun b => { b with buffer := [⟨1, 1, [8]⟩, ⟨2, 1, [7]⟩] }) s
  { (s.setLine 9 ⟨true, 9, .pending, 1⟩).setLine 32 ⟨true, 32, .pending, 1⟩ with
    generalQueue := List.replicate 7 (.notice 1), arbLast := .branch 0 }

theorem witness_AdmissionIsCyclic :
    let rank : Claimant → Nat := fun c => match c with
      | .decoder => 0
      | .branch p => 1 + p.val
      | .eventUnit => 5
    let first := fun (s : State) (c : Claimant) => s.claims c = true ∧ ∀ d, s.claims d = true →
      (rank c + 5 - rank s.arbLast) % 6 ≤ (rank d + 5 - rank s.arbLast) % 6
    let second := { claiming with arbLast := .branch 2, generalQueue := [] }
    let third := { claiming with
      arbLast := .eventUnit, decoder := ⟨none, .general, none⟩
      ingress := [⟨0xFFFFFC0000, 16, .read 63⟩, waitingWrite] }
    (claiming.trunkState = .up ∧ claiming.generalQueue.length < 8 ∧
      (claiming.port 2).buffer = ⟨1, 1, [8]⟩ :: [⟨2, 1, [7]⟩] ∧ first claiming (.branch 2)) ∧
    (second.trunkState = .up ∧ second.generalQueue.length < 8 ∧ (second.line 9).enable = true ∧
      (second.line 9).state = .pending ∧
      (∀ j : LineIdx, (second.line j).enable = true → (second.line j).state = .pending →
        ((9 : LineIdx).val + 32 - second.lastLine.val) % 33 ≤ (j.val + 32 - second.lastLine.val) % 33) ∧
      first second .eventUnit) ∧
    (third.trunkState = .up ∧ third.generalQueue.length < 8 ∧ first third .decoder ∧ (∀ j, third.ticketOf j ≠ some 63) ∧
      third.apertureBase.toNat ≤ (0xFFFFFC0000 : HostAddr).toNat ∧
      (0xFFFFFC0000 : HostAddr).toNat - third.apertureBase.toNat + 16 ≤ RecordId.identity.offset + RecordId.identity.size) ∧
    8 ≤ working.generalQueue.length ∧ (∀ c, up.claims c = false) := by
  have all : ∀ (P : Claimant → Prop), (∀ c ∈ claimants, P c) → ∀ c, P c := fun P h c => h c (mem_claimants c)
  exact ⟨⟨by decide +kernel, by decide +kernel, by decide +kernel, by decide +kernel, all _ (by decide +kernel)⟩,
    ⟨by decide +kernel, by decide +kernel, by decide +kernel, by decide +kernel, by decide +kernel, by decide +kernel,
      all _ (by decide +kernel)⟩,
    ⟨by decide +kernel, by decide +kernel, ⟨by decide +kernel, all _ (by decide +kernel)⟩, by decide +kernel⟩,
    by decide +kernel, all _ (by decide +kernel)⟩

theorem witness_SlotsGoToTheLowestDrainingWindow :
    let a : Held := ⟨0x40000010, 8, .write [1, 2, 3, 4, 5, 6, 7, 8]⟩
    let b : Held := ⟨0x4000FFF8, 8, .read 0⟩
    let s := queued 1 (List.replicate 7 writeQ) ((withRead 0 .held lookups).setHoldList 2 [a, b])
    let r := s.setHoldList 2 [b]
    (s.port 1).state.accepts = true ∧ (s.port 1).queue.length < 8 ∧ (s.window 2).port.toNat = (1 : PortIdx).val ∧
    s.windowState 2 = .drain ∧ s.holdList 2 = a :: [b] ∧ (s.window 2).base.toNat ≤ a.address.toNat ∧
    b.address.toNat + b.length - 1 ≤ (s.window 2).limit.toNat ∧ (s.window 2).readPermit = true ∧
    (s.window 2).writePermit = true ∧ (∀ x, x < 2 → s.windowClaims 1 x = false) ∧ r.windowState 2 = .drain ∧
    r.holdList 2 = b :: [] ∧ b.body = .read 0 ∧ (r.entry 0).live = some (readX .held) := by decide +kernel

/-- A head that stays, and the three checks that one can fail. -/
theorem witness_SlotsGoToTheLowestDrainingWindow_examined :
    let read : Held := ⟨0x4000FFF8, 9, .read 0⟩
    let write : Held := ⟨0x40000010, 1, .write [1]⟩
    let s := withRead 0 .held lookups
    let drains := fun (u : State) (w : WindowIdx) (h : Held) => u.windowState w = .drain ∧ u.holdList w = h :: []
    (drains (s.setHoldList 2 [write]) 2 write ∧ (s.setHoldList 2 [write]).headFault 2 write = none) ∧
    (drains (s.setHoldList 2 [read]) 2 read ∧
      (s.setHoldList 2 [read]).headFault 2 read = some (.crossing, .refused) ∧ (s.entry 0).live = some (readX .held)) ∧
    (drains (s.setHoldList 5 [{ write with address := 0x40017FFF }]) 5 { write with address := 0x40017FFF } ∧
      s.headFault 5 { write with address := 0x40017FFF } = some (.notPermitted, .refused)) ∧
    (drains ((portIn 1 .down s).setHoldList 2 [{ read with length := 8 }]) 2 { read with length := 8 } ∧
      (portIn 1 .down s).headFault 2 { read with length := 8 } = some (.portUnavailable, .unclaimed)) ∧
    lookups.windowState 2 ≠ .drain ∧ ((portIn 1 .down s).port 1).state.accepts = false ∧
    8 ≤ ((queued 1 (List.replicate 8 writeQ) s).port 1).queue.length ∧ (∀ w, s.windowClaims 1 w = false) := by decide +kernel

theorem witness_WindowWriteReplacesTheRecord :
    let bad := recordOf 3 1 0x10000000 0x1000FFFF 0
    let hold := recordOf 1 3 0x10000000 0x10FFFFFFF 0
    let pass := recordOf 0 0 0 0xFFF 0xFFFFF000
    up.hostReady ∧ up.drained ∧ up.holdList 6 = [] ∧ 2 < bad[1].toNat ∧ Mode.named .hold hold[1] ∧
    (windowWritten .hold hold).enable = true ∧ (windowWritten .hold hold).valid = true ∧ Mode.named .pass pass[1] ∧
    (windowWritten .pass pass).enable = true ∧ (windowWritten .pass pass).valid = true ∧
    (windowWritten .pass (recordOf 0 4 0 0xFFF 0)).enable = true ∧
    (windowWritten .pass (recordOf 0 4 0 0xFFF 0)).valid = false :=
  ⟨hostReady_of_quiet (by decide +kernel),
    fun w h hd => absurd hd ((by decide +kernel : ∀ w, up.windowState w ≠ .drain) w), by decide +kernel,
    by decide +kernel, show _ = _ by decide +kernel, by decide +kernel, by decide +kernel, show _ = _ by decide +kernel,
    by decide +kernel, by decide +kernel, by decide +kernel, by decide +kernel⟩

/-- The refused window of chapter 1: READ, WRITE, READ held for window 3. -/
def refusing : State :=
  let s := up.setWindow 3 (win .hold 1 0x40000000 0x4000FFFF 0x100000)
  let s := (s.setEntry 2 ⟨1, some { readX .held with ticket := 7, window := some 3 }⟩).setEntry 4
    ⟨1, some { readX .held with ticket := 9, window := some 3 }⟩
  s.setHoldList 3 [⟨0x40000100, 8, .read 2⟩, ⟨0x40000000, 4, .write [1, 2, 3, 4]⟩, ⟨0x40000100, 8, .read 4⟩]

/-- The table after the write: ticket 7 before ticket 9, and one WINDOW_REFUSED record with count 3. -/
theorem test_window_refused :
    let t := now (exec (.windowRecordWrite 3 (recordOf 2 1 0x40000000 0x4000FFFF 0x100000)) refusing)
    (t.replyLane, t.faultLog.map fun r => (r.kind, r.count)) = ([2, 4], [(.windowRefused, some (.one 3))]) := by
  decide +kernel

theorem witness_RefuseAndDisableEndHeldRequests :
    let refuse := recordOf 2 1 0x40000000 0x4000FFFF 0x100000
    let off := refuse.set 0 6
    refusing.hostReady ∧ refusing.placed ∧ Mode.named .refuse refuse[1] ∧ (windowWritten .refuse refuse).valid = true ∧
    Mode.named .refuse off[1] ∧ (windowWritten .refuse off).enable = false ∧ refusing.faultLog.length < 16 ∧
    heldReads (refusing.holdList 3) = [2, 4] :=
  ⟨hostReady_of_quiet (by decide +kernel), by unfold State.placed; decide +kernel, show _ = _ by decide +kernel,
    by decide +kernel, show _ = _ by decide +kernel, by decide +kernel, by decide +kernel, by decide +kernel⟩

theorem witness_ControlFieldsTakeTheirRanges :
    up.hostReady ∧ (0xFFFFFF0000 : BitVec 64).toNat < 2 ^ 40 ∧ (0xFFFFFF0000 : BitVec 64).toNat % 0x10000 = 0 ∧
    2 ^ 40 ≤ (0x10000000000 : BitVec 64).toNat ∧ (0xFFFF : BitVec 64).toNat % 0x10000 ≠ 0 ∧ 16 ≤ (16 : BitVec 32).toNat ∧
    (1048575 : BitVec 32).toNat ≤ 1048575 ∧ (15 : BitVec 32).toNat < 16 ∧ 1048575 < (1048576 : BitVec 32).toNat ∧
    (65535 : BitVec 32).toNat ≤ 65535 ∧ 65535 < (65536 : BitVec 32).toNat :=
  ⟨hostReady_of_quiet (by decide +kernel), by decide, by decide, by decide, by decide, by decide, by decide, by decide,
    by decide, by decide, by decide⟩

theorem witness_RouterResetClearsTheRouter : working.hostReady :=
  ⟨by decide +kernel, by decide +kernel, by decide +kernel, by decide +kernel, working_admitted, by decide +kernel⟩

theorem witness_PortControlGroupWrites :
    let good := fun (x y : Byte) (k : BitVec 16) => x.toNat ≤ 1 ∧ y.toNat ≤ 1 ∧ k.toNat ≤ 255
    up.hostReady ∧ working.hostReady ∧ good 1 1 255 ∧ good 0 0 0 ∧ ¬good 2 0 0 ∧ ¬good 0 2 0 ∧ ¬good 0 0 256 ∧
    (up.port 1).state = .off ∧ (up.port 1).link.transmitting = none ∧ (working.port 1).state ≠ .off ∧
    ((1 : Byte) = 1 ∧ (working.port 1).state ≠ .off) ∧ ((0 : Byte) = 0 ∧ (up.port 1).state = .off) :=
  ⟨hostReady_of_quiet (by decide +kernel), witness_RouterResetClearsTheRouter, by decide, by decide, by decide, by decide,
    by decide, by decide +kernel, by decide +kernel, by decide +kernel, by decide +kernel, by decide +kernel⟩

theorem witness_PortCommands :
    lookups.hostReady ∧ (lookups.port 1).state = .up ∧ lookups.portIdle 1 = true ∧ working.hostReady ∧
    (working.port 1).state = .up ∧ working.portIdle 1 = false ∧ (portIn 1 .doze up).hostReady ∧
    ((portIn 1 .doze up).port 1).state = .doze ∧ (lookups.port 0).state = .off :=
  ⟨hostReady_of_quiet (by decide +kernel), by decide +kernel, by decide +kernel, witness_RouterResetClearsTheRouter,
    by decide +kernel, by decide +kernel, hostReady_of_quiet (by decide +kernel), by decide +kernel, by decide +kernel⟩

theorem witness_EventLineWrites :
    let at' := fun (st : LineState) => up.setLine 32 ⟨true, 5, st, 255⟩
    ((at' .notified).hostReady ∧ (at' .again).hostReady ∧ (at' .idle).hostReady) ∧
    (up.setLine 32 ⟨false, 5, .pending, 1⟩).hostReady ∧ (1 : Byte).toNat ≤ 1 ∧ 1 < (2 : Byte).toNat :=
  ⟨⟨hostReady_of_quiet (by decide +kernel), hostReady_of_quiet (by decide +kernel), hostReady_of_quiet (by decide +kernel)⟩,
    hostReady_of_quiet (by decide +kernel), by decide, by decide⟩

theorem witness_PopRemovesTheHeadRecord :
    let r : FaultRecord := ⟨.expired, .tickets, none, none, none, none, 0⟩
    let s := { up with faultLog := r :: List.replicate 15 r }
    (s.hostReady ∧ s.faultLog = r :: List.replicate 15 r ∧ s.faultLog.length ≤ 16 ∧ up.faultLog = []) ∧
    ({ s with faultLog := List.replicate 15 r } : State).faultLog.length < 16 ∧
    (16 ≤ s.faultLog.length ∧ ({ s with dropped := 65534 } : State).dropped.toNat < 65535 ∧
      ({ s with dropped := 65535 } : State).dropped.toNat = 65535) :=
  ⟨⟨hostReady_of_quiet (by decide +kernel), by decide +kernel, by decide +kernel, by decide +kernel⟩, by decide +kernel⟩

/-- The dropped count of a full log adds one and stays at 65,535 (R160). -/
theorem test_full_log_saturates :
    let r : FaultRecord := ⟨.expired, .tickets, none, none, none, none, 0⟩
    let at' := fun (n : BitVec 16) => (now (exec (.crcError .trunk) { up with faultLog := List.replicate 16 r, dropped := n })).dropped
    (at' 65534, at' 65535) = (65535, 65535) := by decide +kernel

theorem witness_CounterWritesClear : up.hostReady ∧ 3 + 1 ≤ 4 ∧ 0 + 5 ≤ 5 := ⟨hostReady_of_quiet (by decide +kernel), by decide⟩

theorem witness_ManagementWriteForms :
    let inside := fun (r : RecordId) (off len : Nat) => r.offset ≤ off ∧ off + len ≤ r.offset + r.size
    up.hostReady ∧ 2 % 4 ≠ 0 ∧ 1 % 4 ≠ 0 ∧ inside (.window 23) 0x22FC 4 ∧ 0x22FC ≠ 0x2000 + 0x20 * (23 : WindowIdx).val ∧
    inside .control 0x44 4 ∧ inside (.port 3) 0x1310 4 ∧ inside .identity 0xC 4 ∧ inside .routerTime 0x80 4 ∧
    inside .logHead 0x501C 4 ∧ inside (.view 15) 0x31FC 4 ∧ 10 ≤ ((0 : Byte) ++ (10 : Byte) : BitVec 16).toNat ∧
    (0x130C = 0x1000 + 0x100 * (3 : PortIdx).val + 0x0C ∧ 0x1400 ≤ 0x1400 ∧ 0x1400 + 8 ≤ 0x1408 ∧
      0x4104 = 0x4000 + 8 * (32 : LineIdx).val + 4 ∧ ([0, 9, 9, 9] : List Byte).head? = some 0) :=
  ⟨hostReady_of_quiet (by decide +kernel), by decide, by decide, by decide, by decide, by decide, by decide, by decide,
    by decide, by decide, by decide, by decide, by decide⟩

/-- A value out of range in each field, and each WRITE that carries fields and their command. -/
theorem witness_ManagementWriteForms_fields :
    let two := fun (x y : Byte) => (x ++ y : BitVec 16).toNat
    let port := (portIn 1 .doze up).port 1
    (0xFFFFFFFFFF < 65536 * two 0 1 * 2 ^ 32 ∧ two 0x80 0 % 0x10000 ≠ 0 ∧ 65536 * two 0 0 + two 0 15 < 16 ∧
      1048575 < 65536 * two 0 16 + two 0 0 ∧ 65535 < 65536 * two 0 1 + two 0 0 ∧ 1 < 65536 * two 0 0 + two 0 2 ∧
      1 < 65536 * two 1 0 + two 0 0 ∧ 1 < (2 : Byte).toNat ∧ 255 < two 1 0 ∧ two 0 9 < 10 ∧ 3 < (4 : Byte).toNat ∧
      2 < (3 : Byte).toNat) ∧
    (port.state = .doze ∧ 10 ≤ two 0 10 ∧ (1 : Byte).toNat ≤ 1 ∧ (portIn 1 .doze up).hostReady) ∧
    (∀ st ∈ [LineState.idle, .pending, .notified, .again], ∃ s : State, s.hostReady ∧
      ((serveClaims (s.writeTaken.setLine 32 { s.line 32 with enable := true, vector := 5 })).line 32).state = st) ∧
    16 ≤ two 0 16 :=
  ⟨by decide, ⟨by decide +kernel, by decide, by decide, hostReady_of_quiet (by decide +kernel)⟩, by
    intro st hst
    have full : ∀ x : LineState, ({ up.setLine 32 ⟨false, 0, x, 0⟩ with
        generalQueue := List.replicate 8 (.notice 1) } : State).hostReady := fun x =>
      hostReady_of_quiet (by cases x <;> decide +kernel)
    refine ⟨_, full st, ?_⟩
    revert st
    decide +kernel, by decide⟩

/-- One WRITE that enables a NOTIFIED line and carries ACK: IDLE, enabled (R151). -/
theorem test_line_fields_then_command :
    let t := now (exec (.managementWrite 0x4048 [1, 7, 0, 0, 1, 0, 0, 0]) (up.setLine 9 ⟨false, 0, .notified, 3⟩))
    t.line 9 = ⟨true, 7, .idle, 0⟩ := by decide +kernel

/-- The next state of the first waiting command of `working`. -/
theorem working_steps : ∃ t, step working = .next t := ⟨_, rfl⟩

theorem witness_StepsKeepRecordsAndBounds :
    (∃ t, step working = .next t) ∧ working.windowsValid ∧ working.listsFit ∧ working.controlValid ∧ working.logBounded ∧
    working.queuesBounded := by
  refine ⟨working_steps, ?_, ?_, ?_, ?_, ?_⟩
  · unfold State.windowsValid; decide +kernel
  · unfold State.listsFit; decide +kernel
  · unfold State.controlValid; decide +kernel
  · unfold State.logBounded; decide +kernel
  · unfold State.queuesBounded; decide +kernel

theorem witness_StepsKeepTicketsDistinct : (∃ t, step working = .next t) ∧ working.ticketsDistinct := by
  refine ⟨working_steps, fun i j t hi hj => ?_⟩
  have h : ∀ i j, (working.ticketOf i).isSome = true → working.ticketOf i = working.ticketOf j → i = j := by decide +kernel
  exact h i j (by rw [hi]; rfl) (hi.trans hj.symm)

theorem witness_StepsKeepEveryReadInItsPlace : (∃ t, step working = .next t) ∧ working.placed ∧ working.portsQuiet :=
  ⟨working_steps, working_placed, by unfold State.portsQuiet; decide +kernel⟩

theorem witness_StepsKeepTimersInTheirStates :
    (∃ t, step working = .next t) ∧ working.placed ∧ working.portTimers ∧ working.linkTimers ∧ working.idleKept := by
  refine ⟨working_steps, working_placed, ?_, ?_, ?_⟩
  · unfold State.portTimers; decide +kernel
  · intro l
    cases l with
    | trunk => decide +kernel
    | branch p => revert p; decide +kernel
  · unfold State.idleKept; decide +kernel

theorem witness_StepsLeaveNothingWaitingInVain :
    (∃ t, step stalled = .next t) ∧ stalled.admitted ∧ stalled.headWaits :=
  ⟨⟨_, rfl⟩, admitted_of_claimants (by decide +kernel), stalled_headWaits⟩

/-- Window 2 drains into port 1's full queue. -/
def draining : State :=
  { (queued 1 (List.replicate 8 writeQ) lookups).setHoldList 2 [⟨0x40000010, 4, .write [1, 2, 3, 4]⟩] with
    pending := [.transmitterFree .trunk] }

theorem draining_drained : draining.drained := fun w h hd hh => by
  have hw : ∀ w, draining.windowState w = .drain → w = 2 := by decide +kernel
  obtain rfl := hw w hd
  have hl : (draining.holdList 2).head? = some ⟨0x40000010, 4, .write [1, 2, 3, 4]⟩ := by decide +kernel
  rw [hl] at hh
  obtain rfl := Option.some.inj hh
  decide +kernel

theorem witness_StepsDrainWhatCanDrain :
    (∃ t, step draining = .next t ∧ t.trunkState ≠ .down) ∧ draining.slotsGranted ∧ draining.drained ∧
    draining.porN = true :=
  ⟨⟨_, rfl, by decide +kernel⟩, fun w h hd hh _ => (draining_drained w h hd hh).2, draining_drained, by decide +kernel⟩

/-- The RESET frame of R186 between its symbols, behind stray symbols, is a RESET; broken off by a second frame start it is
a CRC error first. -/
theorem test_symbols_make_frames :
    let reset := frameSymbols [0xF0, 0x0E, 0xEF]
    (Receiver.reset.hear .trunk ([.data 0x10, .frameEnd, .idle] ++ reset)).2 = [.trunkReset 3] ∧
    (Receiver.reset.hear .trunk ([.frameStart, .data 0xF0] ++ reset)).2 = [.crcError .trunk, .trunkReset 3] ∧
    (Receiver.reset.hear (.branch 2) ([.frameStart, .data 0x40, .violation, .data 0x40, .frameEnd])).2 = [.crcError (.branch 2)] := by
  decide +kernel

/-- A frame that is open when the signal is reported absent, 50 cycles of REFCLK after its last symbol, is dropped, and its end
makes nothing (R190). -/
theorem test_open_frame_is_dropped_with_the_signal :
    let opened : List FrontInput := [.symbol .trunk .frameStart, .symbol .trunk (.data 0xF0)]
    let rest : List FrontInput := [.symbol .trunk (.data 0x0E), .symbol .trunk (.data 0xEF), .symbol .trunk .frameEnd]
    let silent := fun n => (Front.reset.run (opened ++ List.replicate n .refclk)).1
    (silent 49).trunk.frame = some [0xF0] ∧ ((silent 49).run rest).2 = [.trunkReset 3] ∧
    (silent 50).trunk.frame = none ∧ ((silent 50).run rest).2 = [] := by decide +kernel

/-- A branch in OFF and a router with POR_N low drive nothing; a port without a frame to send drives idle symbols; the first
SYNC of the trunk is driven with its CRC (section 11.1, R185, R190). -/
theorem test_lanes_driven :
    up.drives (.branch 0) = .undriven ∧ (portIn 0 .doze up).drives (.branch 0) = .idle ∧
    (now (exec .porAssert up)).drives .trunk = .undriven ∧
    (State.reset.drives .trunk).symbols = frameSymbols (sealFrame [0x80, 16, 8]) := by decide +kernel

/-- From reset the front's clock and symbols queue the commands they make (R186, R190). -/
theorem test_front_queues_commands :
    (up.await .reset (List.replicate 25 .refclk ++
      [.symbol (.branch 1) .frameStart, .symbol (.branch 1) .frameEnd, .porHigh true false])).pending =
      [.routerTimeTick, .crcError (.branch 1), .porRelease true false] := by decide +kernel

/-- Any boundary that the clauses on receivers name: a frame of no bytes, of 2 and of 74, a receiver in each condition. -/
theorem witness_FramesReadBackAsTheyAreWritten :
    let c : Instr := .moduleWriteArrival 3 73 65 0xFFFFFFFF (List.replicate 65 255)
    let gone : Receiver := { Receiver.reset with signal := false }
    (c.wellFormed = true ∧ (frameBody c).map (fun x => (x.1, x.2.1, x.2.2.length)) = some (.branch 3, 73, 71) ∧
      (frameBytes c).map (fun x => (x.1, x.2.length)) = some (.branch 3, 73) ∧
      (Instr.trunkReset 3).wellFormed = true ∧ frameBody (.trunkReset 3) = some (.trunk, 3, [0xF0])) ∧
    ([0xF0, 0x0E] : List Byte).length < 3 ∧ 73 < (List.replicate 74 (0 : Byte)).length ∧
    (Receiver.reset.signal = true ∧ Receiver.reset.stopped = false ∧ Receiver.reset.frame = none) ∧
    Symbol.frameStart ∉ [.data 1, .frameEnd, .idle, .violation] ∧ gone.signal = false ∧ gone.stop.stopped = true := by
  decide +kernel

theorem witness_RecordMapIsExact :
    (1 ≤ 4 ∧ readForm 0xFFFC 1 = none ∧ readForm 0x2FC 4 = none ∧ readForm 0x22FC 4 = some (.window 23, 28)) ∧
    ((withRead 0 .held up).entry 0).live = some (readX .held) ∧ (up.entry 15).live = none ∧ up.faultLog = [] ∧
    ∀ c ∈ [none, some (FaultCount.one 65535), some (.pair 24 255)],
      let r : FaultRecord := ⟨.windowInvalid, .management, some 23, some 63, some 0xFFFFFFFFFF, c, 0xFFFFFFFF⟩
      ({ up with faultLog := [r] } : State).faultLog = r :: [] := by decide +kernel

end Sys2Proof.Tests
end

section
/-! The states of a window, case by case (R3). -/

namespace Sys2Proof.Machine

section
variable {s : State} {w : WindowIdx}

theorem windowState_of_disabled (he : (s.window w).enable = false) : s.windowState w = .disabled := by
  simp only [State.windowState, he, Bool.false_eq_true, if_false]

theorem windowState_of_pass (he : (s.window w).enable = true) (hm : (s.window w).mode = .pass) :
    s.windowState w = if s.holdList w = [] then .pass else .drain := by
  simp only [State.windowState, he, hm, if_true, List.isEmpty_iff]

theorem windowState_of_hold (he : (s.window w).enable = true) (hm : (s.window w).mode = .hold) :
    s.windowState w = .hold := by
  simp only [State.windowState, he, hm, if_true]

theorem windowState_of_refuse (he : (s.window w).enable = true) (hm : (s.window w).mode = .refuse) :
    s.windowState w = .refuse := by
  simp only [State.windowState, he, hm, if_true]

/-- A window drains exactly while it is enabled in PASS and holds a request (R3). -/
theorem windowState_eq_drain_iff :
    s.windowState w = .drain ↔ (s.window w).enable = true ∧ (s.window w).mode = .pass ∧ s.holdList w ≠ [] := by
  cases he : (s.window w).enable with
  | false => simp [windowState_of_disabled he]
  | true =>
    cases hm : (s.window w).mode with
    | pass => by_cases hl : s.holdList w = [] <;> simp [windowState_of_pass he hm, hl]
    | hold => simp [windowState_of_hold he hm]
    | refuse => simp [windowState_of_refuse he hm]

end

end Sys2Proof.Machine
end

section
/-! The record map of the aperture, and what the management unit does with a well-formed WRITE at a free decoder. -/

namespace Sys2Proof.Machine

/-! ### The record map -/

/-- A record that the map gives an offset contains it. -/
theorem inside_of_recordAt {off : Nat} {r : RecordId} (h : recordAt off = some r) :
    r.offset ≤ off ∧ off < r.offset + r.size := by
  have inside : ∀ x : RecordId, (if x.offset ≤ off ∧ off < x.offset + x.size then some x else none) = some r →
      r.offset ≤ off ∧ off < r.offset + r.size := by
    intro x hx
    split at hx
    · obtain rfl := Option.some.inj hx
      assumption
    · cases hx
  unfold recordAt at h
  repeat' split at h
  all_goals exact inside _ h

/-- An offset inside slot `i` of an array of records at `base` has the index `i`. -/
theorem slot_index {n base step off : Nat} [NeZero n] (i : Fin n) (hlo : base + step * i.val ≤ off)
    (hhi : off < base + step * i.val + step) : Fin.ofNat n ((off - base) / step) = i := by
  have : (off - base) / step = i.val :=
    Nat.div_eq_of_lt_le (by rw [Nat.mul_comm]; omega) (by rw [Nat.mul_comm, Nat.mul_succ]; omega)
  rw [this]
  exact Fin.ofNat_val_eq_self i

/-- An offset inside a record is given that record: no two records share a byte (R170). -/
theorem recordAt_of_inside {off : Nat} {r : RecordId} (h1 : r.offset ≤ off) (h2 : off < r.offset + r.size) :
    recordAt off = some r := by
  cases r with
  | port i | window i | view i | line i =>
    have hi := i.isLt
    simp only [RecordId.offset, RecordId.size] at h1 h2
    simp (disch := omega) only [recordAt, if_neg, if_pos, slot_index i h1 (by omega), RecordId.offset, RecordId.size]
  | identity | control | routerTime | trunk | logHead | logControl =>
    simp only [RecordId.offset, RecordId.size] at h1 h2
    simp (disch := omega) only [recordAt, RecordId.offset, RecordId.size, if_neg, if_pos]
    exact if_pos ⟨h1, h2⟩

/-- A request is given a record exactly when it is aligned and the record contains all of its bytes (R170, R171). -/
theorem readForm_eq_some_iff {off len : Nat} {r : RecordId} {k : Nat} (hlen : 1 ≤ len) :
    readForm off len = some (r, k) ↔
      off % 4 = 0 ∧ len % 4 = 0 ∧ r.offset ≤ off ∧ off + len ≤ r.offset + r.size ∧ k = off - r.offset := by
  unfold readForm
  constructor
  · intro h
    split at h
    · rename_i hal
      split at h
      · rename_i x hx
        split at h
        · rename_i hend
          obtain ⟨rfl, rfl⟩ : x = r ∧ off - x.offset = k := by simpa using h
          exact ⟨hal.1, hal.2, (inside_of_recordAt hx).1, hend, rfl⟩
        · cases h
      · cases h
    · cases h
  · rintro ⟨h4, hl4, hlo, hhi, rfl⟩
    rw [if_pos ⟨h4, hl4⟩, recordAt_of_inside hlo (by omega)]
    exact if_pos hhi

end Sys2Proof.Machine
end

section
/-! The bytes of every record of the aperture, field by field: each field is a slice of the record's bytes, and a slice of
whole bytes spells its number, most significant byte first (R188). -/

namespace Sys2Proof

/-- A byte in front of others stands above all of them. -/
theorem beNat_cons (b : Byte) (bs : List Byte) : beNat (b :: bs) = b.toNat * 256 ^ bs.length + beNat bs := by
  have shift : ∀ (l : List Byte) (a : Nat),
      l.foldl (fun a b => a * 256 + b.toNat) a = a * 256 ^ l.length + beNat l := by
    intro l
    induction l with
    | nil => simp [beNat]
    | cons x xs ih =>
      intro a
      simp only [beNat, List.foldl_cons, List.length_cons, Nat.zero_mul, Nat.zero_add]
      rw [ih, ih x.toNat]
      ring
  simpa [beNat] using shift bs b.toNat

@[simp] theorem length_beBytes (n v : Nat) : (beBytes n v).length = n := by
  induction n with
  | zero => rfl
  | succ n ih => simp [beBytes, ih]

/-- The bytes of a number spell what of it fits in them. -/
theorem beNat_beBytes (n v : Nat) : beNat (beBytes n v) = v % 256 ^ n := by
  induction n with
  | zero => simp [beBytes, beNat, Nat.mod_one]
  | succ n ih =>
    have split : v % 256 ^ (n + 1) = v % 256 ^ n + 256 ^ n * (v / 256 ^ n % 256) := by rw [pow_succ, Nat.mod_mul]
    rw [beBytes, beNat_cons, ih, length_beBytes, BitVec.toNat_ofNat, split, Nat.mul_comm, Nat.add_comm]

theorem beNat_singleton (b : Byte) : beNat [b] = b.toNat := by simp [beNat]

end Sys2Proof

namespace Sys2Proof.Machine

/-- The number that `n` bytes of a record spell from offset `k` on (R188). -/
def fieldAt (bs : List Byte) (k n : Nat) : Nat := beNat ((bs.drop k).take n)

theorem beNat_pad (n : Nat) : beNat (pad n) = 0 := by
  induction n with
  | zero => rfl
  | succ n ih => simpa [pad, List.replicate_succ, beNat_cons] using ih

/-- A slice that is the bytes of a word spells the word. -/
theorem fieldAt_word {w n k : Nat} {bs : List Byte} {v : BitVec w} (hs : (bs.drop k).take n = beBytes n v.toNat)
    (hw : w ≤ 8 * n) : fieldAt bs k n = v.toNat := by
  have hv : v.toNat < 256 ^ n := by
    calc v.toNat < 2 ^ w := v.isLt
      _ ≤ 2 ^ (8 * n) := Nat.pow_le_pow_right (by decide) hw
      _ = 256 ^ n := by rw [pow_mul]; norm_num
  rw [fieldAt, hs, beNat_beBytes, Nat.mod_eq_of_lt hv]

/-- A slice of unused bytes reads 0 (R188). -/
theorem fieldAt_pad {bs : List Byte} {k n : Nat} (hs : (bs.drop k).take n = pad n) : fieldAt bs k n = 0 := by
  rw [fieldAt, hs, beNat_pad]

/-- A slice of one byte spells that byte. -/
theorem fieldAt_byte {bs : List Byte} {k : Nat} {b : Byte} (hs : (bs.drop k).take 1 = [b]) :
    fieldAt bs k 1 = b.toNat := by
  rw [fieldAt, hs, beNat_singleton]

/-- A slice of one byte that holds a number spells it modulo 256. -/
theorem fieldAt_number {bs : List Byte} {k v : Nat} (hs : (bs.drop k).take 1 = [byte v]) : fieldAt bs k 1 = v % 256 := by
  rw [fieldAt_byte hs, byte, BitVec.toNat_ofNat]

/-- A slice of one byte that holds a number below 256 spells it. -/
theorem fieldAt_small {bs : List Byte} {k v : Nat} (hs : (bs.drop k).take 1 = [byte v]) (hv : v < 256) :
    fieldAt bs k 1 = v := by
  rw [fieldAt_number hs, Nat.mod_eq_of_lt hv]

/-- A flag at a bit position is worth that power of 2 where it is set. -/
theorem bit_eq (b : Bool) (k : Nat) : bit b k = 2 ^ k * once b := by
  cases b <;> simp [bit, once]

theorem once_le (b : Bool) : once b ≤ 1 := by cases b <;> decide

/-- The status that an entry in REPLYING has as its answer (R61). -/
def Stage.answer : Stage → Option Status
  | .replying _ st _ => some st
  | _ => none

theorem Stage.isSome_answer (g : Stage) : g.answer.isSome = g.isReplying := by cases g <;> rfl

theorem Stage.code_lt (g : Stage) : g.code < 256 := by cases g <;> simp [Stage.code]

theorem Stage.answerCode_lt (g : Stage) : (g.answer.map (·.code)).getD 0 < 256 := by
  cases g with
  | replying r st data => cases st <;> simp [Stage.answer, Status.code]
  | held | queued r | sent r => simp [Stage.answer]

/-- The ticket view of a FREE entry. -/
theorem viewBytes_free {s : State} {i : EntryIdx} (h : (s.entry i).live = none) :
    viewBytes s i = [0, (s.entry i).epoch.setWidth 8, (s.branchTicket i).setWidth 8] ++ pad 29 := by
  simp only [viewBytes, h]

/-- The ticket view of a live entry. -/
theorem viewBytes_live {s : State} {i : EntryIdx} {v : Live} (h : (s.entry i).live = some v) :
    viewBytes s i =
      [byte v.stage.code, (s.entry i).epoch.setWidth 8, (s.branchTicket i).setWidth 8,
       byte (bit v.window.isSome 0 + bit v.stage.route.isSome 1 + bit v.stage.answer.isSome 2), v.ticket.setWidth 8,
       byte v.length, byte ((v.window.map (·.val)).getD 0), byte ((v.stage.route.map (·.port.val)).getD 0)] ++
      beBytes 5 v.address.toNat ++ [byte ((v.stage.answer.map (·.code)).getD 0)] ++ pad 2 ++
      beBytes 4 ((v.stage.route.map (·.address.toNat)).getD 0) ++ beBytes 4 v.deadline.toNat ++ pad 8 := by
  simp only [viewBytes, h]
  cases v.stage <;> rfl

/-- Every ticket view has the epoch and the branch ticket in its bytes 1 and 2 (R81). -/
theorem viewBytes_ids (s : State) (i : EntryIdx) :
    ((viewBytes s i).drop 1).take 1 = [(s.entry i).epoch.setWidth 8] ∧
      ((viewBytes s i).drop 2).take 1 = [(s.branchTicket i).setWidth 8] := by
  cases h : (s.entry i).live with
  | none => rw [viewBytes_free h]; exact ⟨rfl, rfl⟩
  | some v => rw [viewBytes_live h]; exact ⟨rfl, rfl⟩

/-- The fault log head record of an empty log. -/
theorem logHeadBytes_nil {s : State} (h : s.faultLog = []) : logHeadBytes s = pad 32 := by
  simp only [logHeadBytes, h]

/-- The fault log head record of a log that holds one. -/
theorem logHeadBytes_cons {s : State} {r : FaultRecord} {rest : List FaultRecord} (h : s.faultLog = r :: rest) :
    logHeadBytes s =
      [byte r.kind.code, byte r.source.code,
       byte (bit r.window.isSome 0 + bit r.ticket.isSome 1 + bit r.address.isSome 2 + bit r.count.isSome 3),
       byte ((r.window.map (·.val)).getD 0), (r.ticket.getD 0).setWidth 8] ++ pad 3 ++
      beBytes 5 (r.address.getD 0).toNat ++ pad 3 ++ countBytes r.count ++ pad 2 ++ beBytes 4 r.time.toNat ++ pad 8 := by
  simp only [logHeadBytes, h]

/-- Every record is as long as the map says (R170). -/
theorem length_recordBytes (s : State) (r : RecordId) : (recordBytes s r).length = r.size := by
  cases r with
  | view i =>
    show (viewBytes s i).length = 32
    cases h : (s.entry i).live with
    | none => rw [viewBytes_free h]; rfl
    | some v => rw [viewBytes_live h]; rfl
  | logHead =>
    show (logHeadBytes s).length = 32
    cases h : s.faultLog with
    | nil => rw [logHeadBytes_nil h]; rfl
    | cons r rest => rw [logHeadBytes_cons h]; cases r.count with
      | none => rfl
      | some c => cases c <;> rfl
  | identity | control | routerTime | port p | trunk | window w | line i | logControl => rfl

/-! ### Fields that several records have -/

/-- A flag in bit 0 of a byte. -/
theorem fieldAt_flag {bs : List Byte} {k : Nat} {b : Bool} (hs : (bs.drop k).take 1 = [byte (bit b 0)]) :
    fieldAt bs k 1 = once b := by
  have := once_le b
  rw [fieldAt_number hs, bit_eq]
  omega

/-- A byte that holds a narrower word spells it. -/
theorem fieldAt_narrow {w k : Nat} {bs : List Byte} {v : BitVec w} (hs : (bs.drop k).take 1 = [v.setWidth 8]) (hw : w ≤ 8) :
    fieldAt bs k 1 = v.toNat := by
  rw [fieldAt_byte hs, BitVec.toNat_setWidth_of_le hw]

/-- The four counters of a link stand side by side (R189). -/
theorem fieldAt_counters {bs : List Byte} {k : Nat} {e : LinkEnd} (hs : (bs.drop k).take 16 = counterBytes e) :
    fieldAt bs k 4 = e.framesOut.toNat ∧ fieldAt bs (k + 4) 4 = e.framesIn.toNat ∧
      fieldAt bs (k + 8) 4 = e.crcErrors.toNat ∧ fieldAt bs (k + 12) 4 = e.framesDiscarded.toNat := by
  have slice : ∀ j, j + 4 ≤ 16 → (bs.drop (k + j)).take 4 = ((counterBytes e).drop j).take 4 := by
    intro j hj
    rw [← hs, List.drop_take, List.take_take, List.drop_drop, min_eq_left (by omega)]
  exact ⟨fieldAt_word (slice 0 (by decide)) (by decide), fieldAt_word (slice 4 (by decide)) (by decide),
    fieldAt_word (slice 8 (by decide)) (by decide), fieldAt_word (slice 12 (by decide)) (by decide)⟩

/-- The branch ticket of an entry is its index times 4 plus its epoch (R64). -/
theorem toNat_branchTicket (s : State) (i : EntryIdx) : (s.branchTicket i).toNat = 4 * i.val + (s.entry i).epoch.toNat := by
  have he := (s.entry i).epoch.isLt
  have hi := i.isLt
  simp only [State.branchTicket, BitVec.toNat_ofNat]
  omega

/-- Three flags in the low bits of a byte. -/
theorem fieldAt_flags {bs : List Byte} {k : Nat} {a b c : Bool}
    (hs : (bs.drop k).take 1 = [byte (bit a 0 + bit b 1 + bit c 2)]) :
    fieldAt bs k 1 = once a + 2 * once b + 4 * once c := by
  have := once_le a
  have := once_le b
  have := once_le c
  rw [fieldAt_number hs, bit_eq, bit_eq, bit_eq]
  omega

/-- Four flags in the low bits of a byte. -/
theorem fieldAt_flags4 {bs : List Byte} {k : Nat} {a b c d : Bool}
    (hs : (bs.drop k).take 1 = [byte (bit a 0 + bit b 1 + bit c 2 + bit d 3)]) :
    fieldAt bs k 1 = once a + 2 * once b + 4 * once c + 8 * once d := by
  have := once_le a
  have := once_le b
  have := once_le c
  have := once_le d
  rw [fieldAt_number hs, bit_eq, bit_eq, bit_eq, bit_eq]
  omega

theorem ingressCount_true (s : State) : s.ingressCount true = (s.ingress.filter fun f => f.body.isRead).length := by
  simp [State.ingressCount]

theorem ingressCount_false (s : State) : s.ingressCount false = (s.ingress.filter fun f => !f.body.isRead).length := by
  simp [State.ingressCount]

/-- The status byte of a window (R2, R3). -/
theorem code_windowState (s : State) (w : WindowIdx) : (s.windowState w).code =
    if (s.window w).enable then match (s.window w).mode with
      | .pass => if s.holdList w = [] then 1 else 2
      | .hold => 3
      | .refuse => 4
    else 0 := by
  cases he : (s.window w).enable with
  | false => rw [windowState_of_disabled he]; rfl
  | true =>
    cases hm : (s.window w).mode with
    | pass => rw [windowState_of_pass he hm]; cases s.holdList w <;> rfl
    | hold => rw [windowState_of_hold he hm]; rfl
    | refuse => rw [windowState_of_refuse he hm]; rfl

/-- Settles O60: the map by `readForm_eq_some_iff`, and each field as the slice of its record's bytes that it is. -/
theorem recordMapIsExact : Obligations.RecordMapIsExact := by
  unfold Obligations.RecordMapIsExact
  refine ⟨fun off len r k hlen => readForm_eq_some_iff hlen, fun s => ?_⟩
  intro field flag counters
  refine ⟨length_recordBytes s, rfl, ?control, fieldAt_word rfl (by decide), fun p => ?port, ?trunk, fun w => ?window,
    fun i => ?view, fun i => ?line, ?head, ⟨rfl, rfl⟩, ?log⟩
  case control =>
    exact ⟨fieldAt_word rfl (by decide), fieldAt_word rfl (by decide), fieldAt_word rfl (by decide), fieldAt_pad rfl⟩
  case port =>
    intro f b
    have code : f 0xC 1 = b.state.code := fieldAt_small rfl (by cases b.state <;> decide)
    have result : f 0xE 1 = b.lastResult.code := fieldAt_small rfl (by cases b.lastResult <;> decide)
    have enable : f 0 1 = once (decide (b.state ≠ .off)) := fieldAt_flag rfl
    refine ⟨?_, fieldAt_flag rfl, fieldAt_word rfl (by decide), fieldAt_word rfl (by decide), fieldAt_pad rfl,
      ?_, fieldAt_flag rfl, ?_, fieldAt_number rfl, fieldAt_word rfl (by decide), fieldAt_number rfl, fieldAt_pad rfl,
      fieldAt_counters rfl, fieldAt_word rfl (by decide)⟩
    · rw [enable]; cases b.state <;> rfl
    · rw [code]; cases b.state <;> rfl
    · rw [result]; cases b.lastResult <;> rfl
  case trunk =>
    intro f
    have code : f 0 1 = s.trunkState.code := fieldAt_small rfl (by cases s.trunkState <;> decide)
    refine ⟨?_, ?_, ?_, fieldAt_number rfl, fieldAt_number rfl, ?_, fieldAt_pad rfl, fieldAt_counters rfl⟩
    · rw [code]; cases s.trunkState <;> rfl
    · rw [ingressCount_false]; exact fieldAt_number rfl
    · rw [ingressCount_true]; exact fieldAt_number rfl
    · rw [show f 5 1 = _ from fieldAt_byte rfl]
      split <;> rfl
  case window =>
    intro f r
    have mode : f 1 1 = r.mode.code := fieldAt_small rfl (by cases r.mode <;> decide)
    have status : f 3 1 = (s.windowState w).code := fieldAt_small rfl (by cases s.windowState w <;> decide)
    refine ⟨fieldAt_flags rfl, ?_, fieldAt_byte rfl, ?_, fieldAt_number rfl, fieldAt_pad rfl, fieldAt_word rfl (by decide),
      fieldAt_pad rfl, fieldAt_word rfl (by decide), fieldAt_pad rfl, fieldAt_word rfl (by decide), fieldAt_pad rfl⟩
    · rw [mode]; cases r.mode <;> rfl
    · rw [status]; exact code_windowState s w
  case view =>
    intro f e
    obtain ⟨epoch, ticket⟩ := viewBytes_ids s i
    refine ⟨fieldAt_narrow epoch (by decide), ?_, fun hn => ?_, fun v hv => ?_⟩
    · rw [← toNat_branchTicket]
      exact fieldAt_narrow ticket (by decide)
    · have bytes : recordBytes s (.view i) = _ := viewBytes_free hn
      simp only [f, field, bytes]
      exact ⟨rfl, fieldAt_pad rfl⟩
    · have bytes : recordBytes s (.view i) = _ := viewBytes_live hv
      simp only [f, field, bytes]
      refine ⟨?_, ?_, fieldAt_narrow rfl (by decide), fieldAt_number rfl, ?_, ?_, fieldAt_word rfl (by decide), ?_,
        fieldAt_pad rfl, ?_, fieldAt_word rfl (by decide), fieldAt_pad rfl⟩
      · exact (fieldAt_small rfl v.stage.code_lt).trans (by cases v.stage <;> rfl)
      · rw [← Stage.isSome_answer]
        exact fieldAt_flags rfl
      · exact fieldAt_small rfl (by cases v.window with
          | none => decide
          | some w => exact Nat.lt_trans w.isLt (by decide))
      · exact fieldAt_small rfl (by cases v.stage.route with
          | none => decide
          | some r => exact Nat.lt_trans r.port.isLt (by decide))
      · refine (fieldAt_small rfl v.stage.answerCode_lt).trans ?_
        cases v.stage with
        | replying r st data => cases st <;> rfl
        | held | queued r | sent r => rfl
      · cases v.stage.route with
        | none => rfl
        | some r => exact fieldAt_word rfl (by decide)
  case line =>
    intro f l
    have code : f 5 1 = l.state.code := fieldAt_small rfl (by cases l.state <;> decide)
    refine ⟨fieldAt_flag rfl, fieldAt_byte rfl, fieldAt_pad rfl, ?_, fieldAt_byte rfl, rfl⟩
    rw [code]; cases l.state <;> rfl
  case head =>
    intro f
    refine ⟨fun h => ?_, fun r rest h => ?_⟩
    · have bytes : recordBytes s .logHead = _ := logHeadBytes_nil h
      simp only [f, field, bytes]
      exact fieldAt_pad rfl
    · have bytes : recordBytes s .logHead = _ := logHeadBytes_cons h
      simp only [f, field, bytes]
      refine ⟨fieldAt_small rfl (by cases r.kind <;> decide), ?_, fieldAt_flags4 rfl, ?_, ?_, fieldAt_pad rfl, ?_,
        fieldAt_pad rfl, fun hc => ?_, fun n hc => ?_, fun x y hc => ?_, ?_⟩
      · refine fieldAt_small rfl ?_
        cases r.source with
        | branch p => exact Nat.lt_of_lt_of_le (Nat.add_lt_add_left p.isLt 2) (by decide)
        | trunk | decoder | tickets | management => decide
      · exact fieldAt_small rfl (by cases r.window with
          | none => decide
          | some w => exact Nat.lt_trans w.isLt (by decide))
      · cases r.ticket with
        | none => rfl
        | some t => exact fieldAt_narrow rfl (by decide)
      · cases r.address with
        | none => rfl
        | some a => exact fieldAt_word rfl (by decide)
      · rw [hc]; exact fieldAt_pad rfl
      · rw [hc]; exact fieldAt_word rfl (by decide)
      · rw [hc]; exact ⟨fieldAt_byte rfl, fieldAt_byte rfl⟩
      · cases r.count with
        | none => exact ⟨fieldAt_pad rfl, fieldAt_word rfl (by decide), fieldAt_pad rfl⟩
        | some c => cases c <;> exact ⟨fieldAt_pad rfl, fieldAt_word rfl (by decide), fieldAt_pad rfl⟩
  case log =>
    refine ⟨?_, fieldAt_word rfl (by decide), fieldAt_pad rfl⟩
    exact beNat_beBytes 4 s.faultLog.length

end Sys2Proof.Machine
end

section
/-! What a management WRITE does at a free decoder, the power-on state item by item, and ROUTER RESET. -/

namespace Sys2Proof.Machine

/-! ### A management WRITE at a free decoder -/

/-- A WRITE of the correct form with valid values is applied to its record at its arrival (R44, R57, R172). -/
theorem hostWrite_applied {s : State} (h : s.hostReady) {off : Nat} {data : List Byte} {r : RecordId} {at' : Nat}
    (ho : off < 0x10000) (h1 : 1 ≤ data.length) (h2 : data.length ≤ 64) (hf : writeForm off data.length = some (r, at'))
    (hv : validFields r at' data = true) :
    hostWrite off data s =
      serveClaims (applyRecord r at' data (s.apertureBase + BitVec.ofNat 40 off) s.writeTaken) := by
  obtain ⟨_, _, _, _, _, hb⟩ := id h
  have hoff : s.writeTaken.offsetOf (s.apertureBase + BitVec.ofNat 40 off) = off := (aperture_offset hb ho).2
  rw [hostWrite_hostReady h ho h1 h2]
  simp only [manageWrite, hoff, hf, hv, if_true]

/-- The arbiter finds no claimant where no request waits in a buffer, no line is eligible and the decoder claims nothing. -/
theorem admitted_of_idle {s : State} (hd : s.decoder.claim = .noClaim) (hb : ∀ p, (s.port p).buffer = [])
    (hl : ∀ i, (s.line i).eligible = false) : s.admitted := by
  intro _ c
  cases c with
  | decoder => simp [State.claims, hd]
  | branch p => simp [State.claims, hb p]
  | eventUnit =>
    have : s.nextLine = none := by
      unfold State.nextLine
      rw [List.find?_eq_none]
      intro i _
      simp [hl i]
    simp [State.claims, this]

/-! ### The power-on state -/

section
variable (porN : Bool) (strap : BitVec 2) (q : List Instr)

@[simp] theorem window_blank (w : WindowIdx) : (State.blank porN strap q).window w = .zero := by
  simp [State.window, State.blank]

@[simp] theorem holdList_blank (w : WindowIdx) : (State.blank porN strap q).holdList w = [] := by
  simp [State.holdList, State.blank]

@[simp] theorem entry_blank (i : EntryIdx) : (State.blank porN strap q).entry i = ⟨0, none⟩ := by
  simp [State.entry, State.blank]

@[simp] theorem sentOf_blank (p : PortIdx) : (State.blank porN strap q).sentOf p = [] := by
  simp [State.sentOf, State.blank]

@[simp] theorem port_blank (p : PortIdx) : (State.blank porN strap q).port p = .off true := by
  simp [State.port, State.blank]

@[simp] theorem line_blank (i : LineIdx) : (State.blank porN strap q).line i = .zero := by
  simp [State.line, State.blank]

end

/-- Settles O3: the vectors of `State.reset` are those of the blank state, and every other item is read off. -/
theorem resetState : Obligations.ResetState := by
  unfold Obligations.ResetState
  have port : ∀ p, State.reset.port p = .off true := port_blank true 0 []
  refine ⟨rfl, rfl, rfl, by decide, rfl, rfl, fun w => ⟨window_blank true 0 [] w, ?_, holdList_blank true 0 [] w⟩,
    rfl, rfl, entry_blank true 0 [], sentOf_blank true 0 [], rfl, ?_, fun p => ?_, fun p => ?_, rfl, rfl, rfl, rfl,
    line_blank true 0 [], rfl, rfl, rfl, rfl⟩
  · exact windowState_of_disabled (congrArg WindowRecord.enable (window_blank true 0 [] w))
  · repeat' constructor
  · rw [port p]; repeat' constructor
  · rw [port p]; repeat' constructor

/-! ### ROUTER RESET -/

@[simp] theorem port_clearRouter (s : State) (p : PortIdx) : (clearRouter s).port p = .off (s.port p).link.signal := by
  simp [State.port, clearRouter]

@[simp] theorem line_clearRouter (s : State) (i : LineIdx) : (clearRouter s).line i = .zero := by
  simp [State.line, clearRouter]

/-- The command bytes of ROUTER RESET change nothing but by the command itself (R178, R180). -/
theorem writeControl_routerReset (s : State) : writeControl 0x10 (beBytes 4 1) s = clearRouter s := by
  have base : fieldOf 0x10 (beBytes 4 1) 0x00 8 = none := by decide
  have life : fieldOf 0x10 (beBytes 4 1) 0x08 4 = none := by decide
  have wait : fieldOf 0x10 (beBytes 4 1) 0x0C 4 = none := by decide
  have command : fieldOf 0x10 (beBytes 4 1) 0x10 4 = some 1 := by decide
  simp only [writeControl, base, life, wait, command, withField, if_true]

/-- Settles O45: the command is applied at its arrival, and the cleared router has no claimant to serve. -/
theorem routerResetClearsTheRouter : Obligations.RouterResetClearsTheRouter := by
  unfold Obligations.RouterResetClearsTheRouter
  intro s h
  have applied : exec .routerReset s = .next (serveClaims (clearRouter s.writeTaken)) := by
    show Host.Outcome.next (hostWrite 0x0050 (beBytes 4 1) s) = _
    rw [hostWrite_applied h (by decide) (by decide) (by decide) (r := .control) (at' := 0x10) (by decide) (by decide)]
    simp only [applyRecord, writeControl_routerReset]
  have quiet : (clearRouter s.writeTaken).admitted :=
    admitted_of_idle rfl (fun p => by rw [port_clearRouter]; rfl) (fun i => by rw [line_clearRouter]; rfl)
  rw [applied, serveClaims_of_admitted quiet]
  rfl

end Sys2Proof.Machine
end

section
/-! The branch side of the router: what placing a request does to its port, why the head of a list fails, and the equations of
the examination and of the branch egress slot arbiter (02_hold_lists_and_release.md). -/

namespace Sys2Proof.Machine

/-! ### The lowest-numbered element -/

/-- A search through the indices in order finds the lowest that meets the condition. -/
theorem find?_finRange_lowest {n : Nat} {c : Fin n → Bool} {i : Fin n} (hi : c i = true) (hlow : ∀ j, j < i → c j = false) :
    (List.finRange n).find? c = some i := by
  rw [List.find?_eq_some_iff_append]
  obtain ⟨low, high, hsplit⟩ := List.append_of_mem (List.mem_finRange i)
  have sorted : (List.finRange n).Pairwise (· < ·) := List.pairwise_lt_finRange n
  rw [hsplit, List.pairwise_append] at sorted
  obtain ⟨_, _, before⟩ := sorted
  exact ⟨hi, low, high, hsplit, fun j hj => by rw [hlow j (before j hj i List.mem_cons_self)]; rfl⟩

/-- The lowest-numbered FREE entry is the one that a READ is given (R63). -/
theorem freeEntry_lowest {s : State} {i : EntryIdx} (hi : (s.entry i).live = none)
    (hlow : ∀ j, j < i → (s.entry j).live ≠ none) : s.freeEntry = some i :=
  find?_finRange_lowest (by simp [hi]) (fun j hj => by simpa [Option.isSome_iff_ne_none] using hlow j hj)

/-! ### Placing a request -/

/-- The downstream address of a request that lies above the base, in whole numbers (R16). -/
theorem translate_eq {r : WindowRecord} {a : HostAddr} (h : r.base.toNat ≤ a.toNat) :
    r.translate a = BitVec.ofNat 32 (a.toNat - r.base.toNat + r.target.toNat) := by
  apply BitVec.eq_of_toNat_eq
  have hsub : (a - r.base).toNat = a.toNat - r.base.toNat := BitVec.toNat_sub_of_le h
  simp only [WindowRecord.translate, BitVec.toNat_add, BitVec.toNat_setWidth, BitVec.toNat_ofNat, hsub, Nat.mod_add_mod]

/-- The port that a record names with a number of R8. -/
theorem portIdx_eq {r : WindowRecord} {p : PortIdx} (h : r.port.toNat = p.val) : r.portIdx = p := by
  rw [WindowRecord.portIdx, h]
  exact Fin.ofNat_val_eq_self p

theorem accepts_eq_false_iff {st : PortState} : st.accepts = false ↔ st = .off ∨ st = .down := by
  cases st <;> decide

/-- A port whose queue holds a request is not idle (R113). -/
theorem portIdle_of_queue {s : State} {p : PortIdx} (h : (s.port p).queue ≠ []) : s.portIdle p = false := by
  cases hq : (s.port p).queue with
  | nil => exact absurd hq h
  | cons q rest => simp [State.portIdle, hq]

/-- A port that is not idle loses its idle deadline in UP (R113). -/
theorem refreshIdle_of_busy {s : State} {p : PortIdx} (h : s.portIdle p = false) :
    refreshIdle p s = if (s.port p).state = .up then s.setPort p { s.port p with idle := none } else s := by
  simp only [refreshIdle, h, Bool.false_eq_true, if_false, State.modPort_eq]

/-- A request placed in a branch egress queue: its port takes it, and nothing else changes (R30, R108, R113, R119). -/
theorem placeEgress_eq (p : PortIdx) (q : Queued) (s : State) :
    placeEgress p q s = s.setPort p ((s.port p).withRequest q s.time) := by
  have busy : ∀ u : State, (u.port p).queue = (s.port p).queue ++ [q] → u.portIdle p = false :=
    fun u hu => portIdle_of_queue (by simp [hu])
  simp only [placeEgress, State.modPort_eq, State.port_setPort_self]
  cases hst : (s.port p).state with
  | doze =>
    rw [if_pos rfl, refreshIdle_of_busy (busy _ (by simp [enterWaking]))]
    simp [enterWaking, PortBlock.withRequest, hst]
  | up =>
    rw [if_neg (by decide), refreshIdle_of_busy (busy _ (by simp))]
    simp [PortBlock.withRequest, hst]
  | off | down | training | dozeWait | waking =>
    rw [if_neg (by decide), refreshIdle_of_busy (busy _ (by simp))]
    simp [PortBlock.withRequest, hst]

/-- A request placed leaves the buffer of its port, and its queue is one longer. -/
theorem withRequest_queue (b : PortBlock) (q : Queued) (now : Time) :
    (b.withRequest q now).queue = b.queue ++ [q] ∧ (b.withRequest q now).buffer = b.buffer := by
  unfold PortBlock.withRequest
  split <;> exact ⟨rfl, rfl⟩

/-- The check of a request's permission (R14). -/
theorem barred_iff {isRead readPermit writePermit : Bool} :
    (!if isRead then readPermit else writePermit) = true ↔
      (isRead = true ∧ readPermit = false) ∨ (isRead = false ∧ writePermit = false) := by
  cases isRead <;> simp

theorem closed_iff {st : PortState} : (!st.accepts) = true ↔ st = .off ∨ st = .down := by cases st <;> decide

/-! ### The head of a list -/

theorem contains_eq_false_iff {r : WindowRecord} {a : HostAddr} :
    r.contains a = false ↔ a.toNat < r.base.toNat ∨ r.limit.toNat < a.toNat := by
  simp only [WindowRecord.contains, Bool.and_eq_false_iff, decide_eq_false_iff_not, not_le]

theorem crosses_eq_true_iff {r : WindowRecord} {a : HostAddr} {n : Nat} :
    r.crosses a n = true ↔ a.toNat + n - 1 < r.base.toNat ∨ r.limit.toNat < a.toNat + n - 1 := by
  simp only [WindowRecord.crosses, Bool.not_eq_true', Bool.and_eq_false_iff, decide_eq_false_iff_not, not_le]
  rfl

/-- The checks of an examination, as the record's numbers give them (R17, R28, R29). -/
theorem releaseFailure_eq_headFault {s : State} {w : WindowIdx} {h : Held} (hl : 1 ≤ h.length) :
    s.releaseFailure w h = s.headFault w h := by
  have outside : (!(s.window w).contains h.address || (s.window w).crosses h.address h.length) = true ↔
      h.address.toNat < (s.window w).base.toNat ∨ (s.window w).limit.toNat < h.address.toNat + h.length - 1 := by
    simp only [Bool.or_eq_true, Bool.not_eq_true', contains_eq_false_iff, crosses_eq_true_iff]
    omega
  simp only [State.releaseFailure, State.headFault, outside, barred_iff, closed_iff]

/-! ### Ending a held request -/

section
variable (st : Status) (h : Held) (s : State)

@[simp] theorem toReplying_ports (i : EntryIdx) (data : List Byte) : (toReplying i st data s).ports = s.ports := by
  obtain ⟨e, _⟩ | ⟨_, _, _, e⟩ := toReplying_cases i st data s <;> rw [e]; rfl

@[simp] theorem toReplying_holdLists (i : EntryIdx) (data : List Byte) :
    (toReplying i st data s).holdLists = s.holdLists := by
  obtain ⟨e, _⟩ | ⟨_, _, _, e⟩ := toReplying_cases i st data s <;> rw [e]; rfl

@[simp] theorem endHeld_ports : (endHeld st h s).ports = s.ports := by
  unfold endHeld; split <;> simp

@[simp] theorem endHeld_holdLists : (endHeld st h s).holdLists = s.holdLists := by
  unfold endHeld; split <;> simp

@[simp] theorem endHeld_port (p : PortIdx) : (endHeld st h s).port p = s.port p := by
  simp only [State.port, endHeld_ports]

@[simp] theorem endHeld_holdList (w : WindowIdx) : (endHeld st h s).holdList w = s.holdList w := by
  simp only [State.holdList, endHeld_holdLists]

end

/-- A live entry that is not in REPLYING is answered. -/
theorem toReplying_live {s : State} {i : EntryIdx} {v : Live} (hv : (s.entry i).live = some v)
    (hr : v.stage.isReplying = false) (st : Status) (data : List Byte) : toReplying i st data s = s.answered i v st data := by
  unfold toReplying
  simp only [hv, hr, Bool.false_eq_true, if_false]
  rfl

/-! ### The examination -/

section
variable {s : State} {w : WindowIdx}

/-- A list that does not drain is not examined (R27). -/
theorem examineHeads_of_not_drain (h : s.windowState w ≠ .drain) : examineHeads w s = s := by
  unfold examineHeads
  cases (s.holdList w).length with
  | zero => rfl
  | succ n => simp only [failRun, h, if_false]

/-- A head that passes its examination stays (R30). -/
theorem examineHeads_of_passing {h : Held} {rest : List Held} (hl : s.holdList w = h :: rest)
    (hp : s.releaseFailure w h = none) : examineHeads w s = s := by
  by_cases hd : s.windowState w = .drain
  · simp only [examineHeads, hl, List.length_cons, failRun, hd, hp, if_true]
  · exact examineHeads_of_not_drain hd

/-- A head that fails leaves its list with its record, and the next is examined (R27 to R29). -/
theorem examineHeads_of_failing {h : Held} {rest : List Held} {k : FaultKind} {st : Status} (hd : s.windowState w = .drain)
    (hl : s.holdList w = h :: rest) (hf : s.releaseFailure w h = some (k, st)) :
    examineHeads w s = examineHeads w (recordFault k .decoder (some w) (s.bodyTicket h.body) (some h.address) none
      (endHeld st h (s.setHoldList w rest))) := by
  simp only [examineHeads, hl, List.length_cons, failRun, hd, hf, if_true, recordFault_holdList, endHeld_holdList,
    State.holdList_setHoldList_self]

/-- An examination can change a port only as grants of the general queue do. -/
theorem failRun_port (w : WindowIdx) (n : Nat) (s : State) (p : PortIdx) :
    PortGrant (s.port p) ((failRun w n s).port p) := by
  induction n generalizing s with
  | zero => exact .refl _
  | succ n ih =>
    simp only [failRun]
    split
    · split
      · exact .refl _
      · rename_i h rest _
        split
        · exact .refl _
        · rename_i k st _
          have e : (endHeld st h (s.setHoldList w rest)).port p = s.port p := by simp
          rw [← e]
          exact (recordFault_port ..).trans (ih _)
    · exact .refl _

theorem examineHeads_port (w : WindowIdx) (s : State) (p : PortIdx) :
    PortGrant (s.port p) ((examineHeads w s).port p) := failRun_port ..

theorem PortGrant.queue {b c : PortBlock} (h : PortGrant b c) : c.queue = b.queue := by
  obtain ⟨_, _, _, _, _, _, _, _, e⟩ := h.rest
  rw [e]

end

/-! ### The branch egress slot arbiter -/

section
variable {s : State} {p : PortIdx} {w : WindowIdx}

/-- Without a free slot none is granted (R34). -/
theorem grantWindows_of_full (h : s.egressFree p = false) : grantWindows p s = s := by
  unfold grantWindows
  cases Config.egressSlots - (s.port p).queue.length with
  | zero => rfl
  | succ n => simp only [grantLoop, h, Bool.false_eq_true, if_false]

/-- Without a window that claims none is granted (R34). -/
theorem grantWindows_of_unclaimed (h : ∀ w, s.windowClaims p w = false) : grantWindows p s = s := by
  have none : s.claimingWindow p = none := by
    unfold State.claimingWindow
    rw [List.find?_eq_none]
    exact fun w _ => by simp [h w]
  unfold grantWindows
  cases Config.egressSlots - (s.port p).queue.length with
  | zero => rfl
  | succ n => simp only [grantLoop, none, ite_self]

/-- Where a slot is free, the lowest window that claims has its head released and its next head examined, and the arbiter
goes on with one slot fewer (R34). -/
theorem grantWindows_of_claimed (hf : s.egressFree p = true) (hc : s.claimingWindow p = some w)
    (hq : ((release w s).port p).queue.length = (s.port p).queue.length + 1) :
    grantWindows p s = grantWindows p (examineHeads w (release w s)) := by
  have room : (s.port p).queue.length < Config.egressSlots := by
    simp only [State.egressFree, Bool.and_eq_true, decide_eq_true_eq] at hf
    exact hf.2
  have slots : Config.egressSlots - (s.port p).queue.length =
      (Config.egressSlots - ((examineHeads w (release w s)).port p).queue.length) + 1 := by
    rw [(examineHeads_port w (release w s) p).queue, hq]
    omega
  unfold grantWindows
  rw [slots, grantLoop, if_pos hf, hc]

/-- A head that is released leaves its list, and a WRITE joins its port's queue (R16, R30). -/
theorem release_write {h : Held} {rest : List Held} {data : List Byte} (hl : s.holdList w = h :: rest)
    (hb : h.body = .write data) :
    release w s = placeEgress (s.window w).portIdx ⟨(s.window w).translate h.address, h.length, h.body⟩
      (s.setHoldList w rest) := by
  simp only [release, hl, hb]

/-- A READ that is released goes to QUEUED with its entry (R30, R67). -/
theorem release_read {h : Held} {rest : List Held} {i : EntryIdx} (hl : s.holdList w = h :: rest) (hb : h.body = .read i) :
    release w s = placeEgress (s.window w).portIdx ⟨(s.window w).translate h.address, h.length, h.body⟩
      (setStage i (.queued ⟨(s.window w).portIdx, (s.window w).translate h.address⟩) (s.setHoldList w rest)) := by
  simp only [release, hl, hb]

end

end Sys2Proof.Machine
end

section
/-! Releases in the order of section 2.3: the lowest draining window gets each free slot, and failing heads end in order. -/

namespace Sys2Proof.Machine

/-- The stage of a live entry is set, its other items kept (R66 to R68). -/
theorem setStage_live {s : State} {i : EntryIdx} {v : Live} (hv : (s.entry i).live = some v) (st : Stage) :
    setStage i st s = s.setEntry i ⟨(s.entry i).epoch, some { v with stage := st }⟩ := by
  simp only [setStage, hv, Option.map_some]

section
variable {s : State} {p : PortIdx} {w : WindowIdx} {h : Held} {rest : List Held}

/-- A draining window whose head passes every check claims the queue of its port (R33). -/
theorem windowClaims_of_passing (hd : s.windowState w = .drain) (hp : (s.window w).portIdx = p) (hl : s.holdList w = h :: rest)
    (hpass : s.releaseFailure w h = none) : s.windowClaims p w = true := by
  simp [State.windowClaims, hd, hp, hl, hpass]

/-- A free slot goes to the lowest window that claims: where the release places its head as `q` in the state `u`, the arbiter
goes on from the examination of the next head (R30, R34). -/
theorem grantWindows_lowest (hf : s.egressFree p = true) (hp : (s.window w).portIdx = p) (hd : s.windowState w = .drain)
    (hl : s.holdList w = h :: rest) (hpass : s.releaseFailure w h = none) (hlow : ∀ x, x < w → s.windowClaims p x = false)
    {u : State} {q : Queued} (hu : u.port p = s.port p) (hr : release w s = placeEgress p q u) :
    grantWindows p s = grantWindows p (examineHeads w (u.setPort p ((s.port p).withRequest q u.time))) := by
  have claimed : s.claimingWindow p = some w :=
    find?_finRange_lowest (windowClaims_of_passing hd hp hl hpass) hlow
  rw [placeEgress_eq, hu] at hr
  have longer : ((release w s).port p).queue.length = (s.port p).queue.length + 1 := by
    rw [hr, State.port_setPort_self, (withRequest_queue ..).1, List.length_append, List.length_singleton]
  rw [grantWindows_of_claimed hf claimed longer, hr]

end

/-- Settles O40: the equations of `grantWindows` and `examineHeads`, with the checks read off the record. -/
theorem slotsGoToTheLowestDrainingWindow : Obligations.SlotsGoToTheLowestDrainingWindow := by
  unfold Obligations.SlotsGoToTheLowestDrainingWindow
  refine ⟨?_, ?_, ?_⟩
  · intro s p w h rest r d hacc hroom hport hd hl hbase hlimit hlen hperm hlow place
    have hp : r.portIdx = p := portIdx_eq hport
    have hf : s.egressFree p = true := by
      simp only [State.egressFree, hacc, Bool.true_and, decide_eq_true_eq]
      exact hroom
    have hpass : s.releaseFailure w h = none := by
      have hopen : ¬((s.port r.portIdx).state = .off ∨ (s.port r.portIdx).state = .down) := by
        rw [← accepts_eq_false_iff, hp, hacc]; decide
      rw [releaseFailure_eq_headFault hlen, State.headFault]
      have hbar : ¬((h.body.isRead = true ∧ r.readPermit = false) ∨ (h.body.isRead = false ∧ r.writePermit = false)) := by
        cases hb : h.body.isRead <;> simp_all
      have hinside : ¬(h.address.toNat < r.base.toNat ∨ r.limit.toNat < h.address.toNat + h.length - 1) := by omega
      exact (if_neg hinside).trans ((if_neg hbar).trans (if_neg hopen))
    have ha : r.translate h.address = d := translate_eq hbase
    refine ⟨fun data hb => ?_, fun i v hb hv => ?_⟩
    · refine grantWindows_lowest hf hp hd hl hpass hlow (u := s.setHoldList w rest) rfl ?_
      rw [release_write hl hb, hp, ha]
    · refine grantWindows_lowest hf hp hd hl hpass hlow
        (u := (s.setEntry i ⟨(s.entry i).epoch, some { v with stage := .queued ⟨p, d⟩ }⟩).setHoldList w rest) rfl ?_
      rw [release_read hl hb, setStage_live (s := s.setHoldList w rest) hv, hp, ha]
      rfl
  · intro s p blocked
    rcases blocked with hclosed | hfull | hnone
    · exact grantWindows_of_full (by simp [State.egressFree, hclosed])
    · refine grantWindows_of_full ?_
      simp only [State.egressFree, Bool.and_eq_false_iff, decide_eq_false_iff_not]
      exact .inr (Nat.not_lt.mpr hfull)
    · exact grantWindows_of_unclaimed hnone
  · intro s w
    refine ⟨examineHeads_of_not_drain, fun h rest hd hl hlen => ?_⟩
    rw [← releaseFailure_eq_headFault hlen]
    refine ⟨examineHeads_of_passing hl, fun k st hf => ⟨fun data hb => ?_, fun i v hb hv hheld => ?_⟩⟩
    · rw [examineHeads_of_failing hd hl hf]
      simp only [endHeld, hb, State.bodyTicket]
    · have answered : endHeld st h (s.setHoldList w rest) = (s.setHoldList w rest).answered i v st [] := by
        simp only [endHeld, hb]
        exact toReplying_live (s := s.setHoldList w rest) hv (by rw [hheld]; rfl) st []
      rw [examineHeads_of_failing hd hl hf, answered]
      simp only [hb, State.bodyTicket, State.ticketOf, hv, Option.map_some]

end Sys2Proof.Machine
end

section
/-! A request of the host at a free decoder: its fate by the checks of section 3.2, and the three ways in which it is taken. -/

namespace Sys2Proof.Machine

/-! ### The fate of a request outside the aperture -/

theorem ticketLive_iff {s : State} {t : BitVec 6} : s.ticketLive t = true ↔ ∃ i, s.ticketOf i = some t := by
  simp only [State.ticketLive, State.ticketOf, State.entry, List.any_eq_true, Vector.mem_toList_iff, Vector.mem_iff_getElem,
    Option.any_eq_true, Option.map_eq_some_iff, beq_iff_eq]
  exact ⟨fun ⟨_, ⟨i, hi, rfl⟩, v, hv, ht⟩ => ⟨⟨i, hi⟩, v, hv, ht⟩, fun ⟨i, v, hv, ht⟩ => ⟨_, ⟨i.val, i.isLt, rfl⟩, v, hv, ht⟩⟩

/-- A request outside the aperture, as its address says it (R11, R167). -/
def State.outside (s : State) (a : HostAddr) : Prop :=
  a.toNat < s.apertureBase.toNat ∨ s.apertureBase.toNat + 0xFFFF < a.toNat

/-- A frame that carries no live ticket: a WRITE, or a READ whose ticket no entry holds (R43). -/
def State.fresh (s : State) (f : HostFrame) : Prop := ∀ t, f.body = .read t → ∀ j, s.ticketOf j ≠ some t

section
variable {s : State} {f : HostFrame}

/-- The checks of section 3.2 before the window's own (R43, R44, R12). -/
theorem fate_eq (s : State) (f : HostFrame) :
    s.fate f = if f.body.ticket.any s.ticketLive then .reuse
      else if s.inAperture f.address then .management
      else (s.lookup f.address).elim (.failed .noWindow .unclaimed none) (s.windowFate f) := by
  unfold State.fate
  cases f.body <;> cases s.lookup f.address <;> rfl

/-- A live ticket is found before every other check (R43). -/
theorem fate_of_liveTicket {t : BitVec 6} {i : EntryIdx} (hf : f.body = .read t) (ht : s.ticketOf i = some t) :
    s.fate f = .reuse := by
  have live : s.ticketLive t = true := ticketLive_iff.mpr ⟨i, ht⟩
  rw [fate_eq, hf]
  exact if_pos live

/-- Outside the aperture a frame without a live ticket goes to the window that matches it (R12, R44). -/
theorem fate_of_outside (hfresh : s.fresh f) (hout : s.outside f.address) {m : Option WindowIdx}
    (hm : s.matchedBy f.address m) :
    s.fate f = match m with
      | none => .failed .noWindow .unclaimed none
      | some w => s.windowFate f w := by
  have away : s.inAperture f.address = false := by
    rcases hout with h | h <;> simp [State.inAperture] <;> omega
  have notLive : f.body.ticket.any s.ticketLive = false := by
    cases hb : f.body with
    | write d => rfl
    | read t => exact Bool.eq_false_iff.mpr fun h => (ticketLive_iff.mp h).elim fun i hi => hfresh t hb i hi
  rw [fate_eq, notLive, away, lookup_matchedBy hm]
  cases m <;> rfl

/-- A matched request fails its first failing check, and one that passes them all joins the hold list of a window that
holds or drains, and the port's queue of a window in PASS (R13 to R15, R45 to R47). -/
theorem windowFate_eq {w : WindowIdx} (hs : (s.window w).serves f.address) (hn : 1 ≤ f.length) :
    s.windowFate f w =
      match s.decodeFault f.body.isRead f.address f.length (some w) with
      | some (k, st) => .failed k st (some w)
      | none => if (s.window w).mode = .hold ∨ s.holdList w ≠ [] then .toHold w else .toQueue w := by
  obtain ⟨he, hbase, _⟩ := hs
  have hcross : (s.window w).crosses f.address f.length = true ↔
      (s.window w).limit.toNat < f.address.toNat + f.length - 1 := by
    rw [crosses_eq_true_iff]; omega
  simp only [State.windowFate, State.decodeFault, hcross, barred_iff]
  split
  · rfl
  · split
    · rfl
    · cases hm : (s.window w).mode with
      | refuse => simp [windowState_of_refuse he hm]
      | hold => simp [windowState_of_hold he hm]
      | pass =>
        rw [windowState_of_pass he hm]
        by_cases hc : (s.port (s.window w).portIdx).state = .off ∨ (s.port (s.window w).portIdx).state = .down
        · have ha := accepts_eq_false_iff.mpr hc
          by_cases hl : s.holdList w = [] <;> simp [hl, ha, hc]
        · have ha : (s.port (s.window w).portIdx).state.accepts = true := by
            rw [← Bool.not_eq_false, accepts_eq_false_iff]; exact hc
          by_cases hl : s.holdList w = [] <;> simp [hl, ha, hc]

/-- A request that fails a check outside the aperture (R45, R46). -/
theorem fate_failed (hfresh : s.fresh f) (hout : s.outside f.address) {m : Option WindowIdx}
    (hm : s.matchedBy f.address m) (hn : 1 ≤ f.length) {k : FaultKind} {st : Status}
    (hd : s.decodeFault f.body.isRead f.address f.length m = some (k, st)) : s.fate f = .failed k st m := by
  rw [fate_of_outside hfresh hout hm]
  cases m with
  | none => simp only [State.decodeFault, Option.some.injEq, Prod.mk.injEq] at hd; simp [hd]
  | some w =>
    obtain ⟨hs, _⟩ := hm
    simp only [windowFate_eq hs hn, hd]

/-- A request that passes every check goes to its window's place (R47). -/
theorem fate_passed (hfresh : s.fresh f) (hout : s.outside f.address) {w : WindowIdx}
    (hm : s.matchedBy f.address (some w)) (hn : 1 ≤ f.length)
    (hd : s.decodeFault f.body.isRead f.address f.length (some w) = none) :
    s.fate f = if (s.window w).mode = .hold ∨ s.holdList w ≠ [] then .toHold w else .toQueue w := by
  rw [fate_of_outside hfresh hout hm]
  obtain ⟨hs, _⟩ := hm
  simp only [windowFate_eq hs hn, hd]

theorem entryFor_of_freeEntry {i : EntryIdx} (h : s.freeEntry = some i) : s.entryFor f = true := by
  simp [State.entryFor, h]

theorem entryFor_write {a : HostAddr} {n : Nat} {d : List Byte} : s.entryFor ⟨a, n, .write d⟩ = true := rfl

end

/-! ### The arrival of a request -/

section
variable {s : State} (h : s.hostReady) {a : HostAddr}
include h

/-- A READ that is no management request and finds what it needs is taken at its arrival. -/
theorem exec_hostRead {t : BitVec 6} {n : Nat} (h1 : 1 ≤ n) (h2 : n ≤ 64) {d : Fate} (hd : s.fate ⟨a, n, .read t⟩ = d)
    (hm : d ≠ .management) (hc : s.canTake ⟨a, n, .read t⟩ d = true) :
    exec (.trunkIngressFrame (hostRead t n a)) s = .next (serveClaims (takeFate ⟨a, n, .read t⟩ d s.readTaken)) := by
  obtain ⟨valid, framed, frame⟩ := validRequest_hostRead (a := a) (t := t) h1 h2
  show Host.Outcome.next (receiveRequest (hostRead t n a) s) = _
  rw [receiveRequest_hostReady h valid framed, frame, hd, decide_read h rfl hm hc]

/-- A WRITE that finds what it needs is taken at its arrival. -/
theorem exec_hostWriteFrame {data : List Byte} (h1 : 1 ≤ data.length) (h2 : data.length ≤ 64) {d : Fate}
    (hd : s.fate ⟨a, data.length, .write data⟩ = d) (hc : s.canTake ⟨a, data.length, .write data⟩ d = true) :
    exec (.trunkIngressFrame (hostWriteFrame a data)) s =
      .next (serveClaims (takeFate ⟨a, data.length, .write data⟩ d s.writeTaken)) := by
  obtain ⟨valid, framed, frame⟩ := validRequest_hostWriteFrame (a := a) h1 h2
  show Host.Outcome.next (receiveRequest (hostWriteFrame a data) s) = _
  rw [receiveRequest_hostReady h valid framed, frame, hd, decide_write h rfl d hc]

/-- Where a taken frame changed nothing that a claim rests on, no claimant waits afterwards. -/
theorem serveClaims_afterTaking {u : State} (hd : u.decoder.claim = .noClaim) (ht : u.trunkState = s.trunkState)
    (hq : u.generalQueue = s.generalQueue) (hl : u.lines = s.lines) (hlast : u.lastLine = s.lastLine)
    (hb : ∀ p, (u.port p).buffer = (s.port p).buffer) : serveClaims u = u := by
  obtain ⟨_, _, _, _, admitted, _⟩ := h
  refine serveClaims_of_admitted fun hg c => ?_
  have before := admitted (by rw [← hg, State.generalFree, State.generalFree, ht, hq])
  cases c with
  | decoder => simp [State.claims, hd]
  | branch p => rw [← before (.branch p)]; simp only [State.claims, hb]
  | eventUnit =>
    rw [← before .eventUnit]
    simp only [State.claims, State.nextLine, State.line, ht, hl, hlast]

/-- A taken frame placed in a branch egress queue leaves no claimant waiting. -/
theorem serveClaims_placeEgress {u : State} {p : PortIdx} (q : Queued) (hd : u.decoder.claim = .noClaim)
    (ht : u.trunkState = s.trunkState) (hq : u.generalQueue = s.generalQueue) (hl : u.lines = s.lines)
    (hlast : u.lastLine = s.lastLine) (hp : ∀ k, u.port k = s.port k) (htime : u.time = s.time) :
    serveClaims (placeEgress p q u) = u.setPort p ((s.port p).withRequest q s.time) := by
  rw [placeEgress_eq, hp, htime]
  refine serveClaims_afterTaking h hd ht hq hl hlast fun k => ?_
  rw [State.port_setPort]
  split
  · rename_i hk
    rw [(withRequest_queue ..).2, hk]
  · rw [hp]

end

/-- The READ of a fresh ticket carries no live one, and a WRITE carries none. -/
theorem fresh_read {s : State} {a : HostAddr} {n : Nat} {t : BitVec 6} (ht : ∀ j, s.ticketOf j ≠ some t) :
    s.fresh ⟨a, n, .read t⟩ := by
  intro u hu
  obtain rfl := HostBody.read.inj hu
  exact ht

theorem fresh_write {s : State} {a : HostAddr} {n : Nat} {d : List Byte} : s.fresh ⟨a, n, .write d⟩ :=
  fun _ hu => by cases hu

/-- A READ takes the entry that is free, and what follows is done to the state with that entry live (R54, R63). -/
theorem allocateFree_eq {s : State} {i : EntryIdx} (hi : s.freeEntry = some i) (f : HostFrame) (t : BitVec 6)
    (w : Option WindowIdx) (st : Stage) (next : EntryIdx → State → State) :
    allocateFree f t w st next s = next i (s.setEntry i ⟨(s.entry i).epoch + 1,
      some ⟨t, w, f.address, f.length, s.time + s.ticketLifetime, st⟩⟩) := by
  simp only [allocateFree, hi, allocate]

/-- Settles O34: the fate by its first failing check, and the answer and record that `takeFailed` gives it. -/
theorem failedDecodesAreAnsweredOrDiscarded : Obligations.FailedDecodesAreAnsweredOrDiscarded := by
  unfold Obligations.FailedDecodesAreAnsweredOrDiscarded
  intro s a m k st h
  refine ⟨fun t n i h1 h2 ht => ?_, fun hout hm => ⟨fun t n i h1 h2 hd ht hi hlow => ?_, fun data h1 h2 hd => ?_⟩⟩
  · rw [exec_hostRead h h1 h2 (fate_of_liveTicket rfl ht) (by simp) rfl]
    simp only [takeFate, HostBody.ticket, serveClaims_recordFault]
  · have free : s.freeEntry = some i := freeEntry_lowest hi hlow
    rw [exec_hostRead h h1 h2 (fate_failed (fresh_read ht) hout hm h1 hd) (by simp) (entryFor_of_freeEntry free)]
    simp only [takeFate, takeFailed, HostBody.ticket, serveClaims_recordFault]
    rw [allocateFree_eq (s := s.readTaken) free]
    rfl
  · rw [exec_hostWriteFrame h h1 h2 (fate_failed fresh_write hout hm h1 hd) entryFor_write]
    simp only [takeFate, takeFailed, HostBody.ticket, serveClaims_recordFault]

/-- Settles O35: the fate is the hold list, where the request is appended as it came. -/
theorem heldRequestsJoinTheirList : Obligations.HeldRequestsJoinTheirList := by
  unfold Obligations.HeldRequestsJoinTheirList
  intro s a w h hout hm hheld hroom
  have slot : decide (s.heldTotal < Config.holdSlots) = true := decide_eq_true hroom
  refine ⟨fun t n i h1 h2 hd ht hi hlow => ?_, fun data h1 h2 hd => ?_⟩
  · have free : s.freeEntry = some i := freeEntry_lowest hi hlow
    have hfate : s.fate ⟨a, n, .read t⟩ = .toHold w :=
      (fate_passed (fresh_read ht) hout hm h1 hd).trans (if_pos hheld)
    rw [exec_hostRead h h1 h2 hfate (by simp)
      (by simp only [State.canTake, entryFor_of_freeEntry free, slot, Bool.and_self])]
    simp only [takeFate, takeHold]
    rw [allocateFree_eq (s := s.readTaken) free]
    exact congrArg Host.Outcome.next (serveClaims_afterTaking h rfl rfl rfl rfl rfl fun _ => rfl)
  · have hfate : s.fate ⟨a, data.length, .write data⟩ = .toHold w :=
      (fate_passed fresh_write hout hm h1 hd).trans (if_pos hheld)
    rw [exec_hostWriteFrame h h1 h2 hfate (by simp only [State.canTake, entryFor_write, slot, Bool.and_self])]
    simp only [takeFate, takeHold]
    exact congrArg Host.Outcome.next (serveClaims_afterTaking h rfl rfl rfl rfl rfl fun _ => rfl)

/-- Settles O36: the fate is the port's queue, where the request is placed at its downstream address. -/
theorem passedRequestsJoinTheEgressQueue : Obligations.PassedRequestsJoinTheEgressQueue := by
  unfold Obligations.PassedRequestsJoinTheEgressQueue
  intro s a w p h hout hm hpass hempty hport hroom d
  have hp : (s.window w).portIdx = p := portIdx_eq hport
  have ha : (s.window w).translate a = d := by
    obtain ⟨⟨_, hbase, _⟩, _⟩ := hm
    exact translate_eq hbase
  have opened : ∀ {isRead n}, s.decodeFault isRead a n (some w) = none → s.egressFree p = true := by
    intro isRead n hd
    have hst : ¬((s.port p).state = .off ∨ (s.port p).state = .down) := by
      intro hc
      simp only [State.decodeFault, hpass, hp, hc] at hd
      split at hd
      · cases hd
      · split at hd <;> simp at hd
    rw [← accepts_eq_false_iff, Bool.not_eq_false] at hst
    simp only [State.egressFree, hst, Bool.true_and]
    exact decide_eq_true hroom
  have fate : ∀ {f : HostFrame}, s.fresh f → f.address = a → 1 ≤ f.length →
      s.decodeFault f.body.isRead f.address f.length (some w) = none → s.fate f = .toQueue w := by
    rintro f hfresh rfl hn hd
    exact (fate_passed hfresh hout hm hn hd).trans (if_neg (by simp [hpass, hempty]))
  refine ⟨fun t n i h1 h2 hd ht hi hlow => ?_, fun data h1 h2 hd => ?_⟩
  · have free : s.freeEntry = some i := freeEntry_lowest hi hlow
    rw [exec_hostRead h h1 h2 (fate (fresh_read ht) rfl h1 hd) (by simp)
      (by simp only [State.canTake, entryFor_of_freeEntry free, hp, opened hd, Bool.and_self])]
    have window : s.readTaken.window w = s.window w := rfl
    simp only [takeFate, takeQueue, window, hp, ha]
    rw [allocateFree_eq (s := s.readTaken) free]
    exact congrArg Host.Outcome.next (serveClaims_placeEgress h _ rfl rfl rfl rfl rfl (fun _ => rfl) rfl)
  · rw [exec_hostWriteFrame h h1 h2 (fate fresh_write rfl h1 hd)
      (by simp only [State.canTake, entryFor_write, hp, opened hd, Bool.and_self])]
    simp only [takeFate, takeQueue, State.window_writeTaken, hp, ha]
    exact congrArg Host.Outcome.next (serveClaims_placeEgress h _ rfl rfl rfl rfl rfl (fun _ => rfl) rfl)

end Sys2Proof.Machine
end

section
/-! A whole-record write of a window at a free decoder (R7 to R10, R18 to R22). -/

namespace Sys2Proof.Machine

/-! ### The record that 32 bytes carry -/

/-- A byte joined below a word is added to 256 times the word. -/
theorem toNat_append_byte {n : Nat} (x : BitVec n) (b : Byte) : (x ++ b).toNat = x.toNat * 256 + b.toNat := by
  rw [BitVec.toNat_append, ← Nat.shiftLeft_add_eq_or_of_lt b.isLt, Nat.shiftLeft_eq]

/-- Five bytes in order spell their concatenation. -/
theorem ofNat_beNat_five (a b c d e : Byte) : BitVec.ofNat 40 (beNat [a, b, c, d, e]) = a ++ b ++ c ++ d ++ e := by
  apply BitVec.eq_of_toNat_eq
  have spelled : (a ++ b ++ c ++ d ++ e).toNat = beNat [a, b, c, d, e] := by
    simp only [toNat_append_byte, beNat, List.foldl_cons, List.foldl_nil, Nat.zero_mul, Nat.zero_add]
  rw [BitVec.toNat_ofNat, ← spelled, Nat.mod_eq_of_lt (BitVec.isLt _)]

/-- Four bytes in order spell their concatenation. -/
theorem ofNat_beNat_four (a b c d : Byte) : BitVec.ofNat 32 (beNat [a, b, c, d]) = a ++ b ++ c ++ d := by
  apply BitVec.eq_of_toNat_eq
  have spelled : (a ++ b ++ c ++ d).toNat = beNat [a, b, c, d] := by
    simp only [toNat_append_byte, beNat, List.foldl_cons, List.foldl_nil, Nat.zero_mul, Nat.zero_add]
  rw [BitVec.toNat_ofNat, ← spelled, Nat.mod_eq_of_lt (BitVec.isLt _)]

section
variable {bytes : Vector Byte 32}

theorem getD_toList {k : Nat} (h : k < 32) : bytes.toList.getD k 0 = bytes[k] := by
  simp [List.getD, h]

/-- A slice of the bytes begins with its first byte. -/
theorem slice_toList {k : Nat} (n : Nat) (h : k < 32) :
    (bytes.toList.drop k).take (n + 1) = bytes[k] :: (bytes.toList.drop (k + 1)).take n := by
  rw [List.drop_eq_getElem_cons (by simpa using h), List.take_succ_cons, Vector.getElem_toList]

theorem modeOf_named {b : Byte} {m : Mode} (h : m.named b) : modeOf b = some m := by
  cases m <;> (obtain rfl := id h; rfl)

/-- A mode byte above 2 names no mode (R188). -/
theorem modeOf_eq_none {b : Byte} (h : 2 < b.toNat) : modeOf b = none := by
  unfold modeOf
  rw [if_neg, if_neg, if_neg] <;> rintro rfl <;> exact absurd h (by decide)

/-- The bytes of a write whose mode byte names a mode carry the record that they spell (R188). -/
theorem windowOf_eq {m : Mode} (h : m.named bytes[1]) : windowOf bytes.toList = some (windowWritten m bytes) := by
  simp only [windowOf, getD_toList (bytes := bytes) (show 0 < 32 by decide),
    getD_toList (bytes := bytes) (show 1 < 32 by decide), getD_toList (bytes := bytes) (show 2 < 32 by decide),
    modeOf_named h, Option.map_some, windowWritten]
  rw [slice_toList 4 (by decide), slice_toList 3 (by decide), slice_toList 2 (by decide), slice_toList 1 (by decide),
    slice_toList 0 (by decide), slice_toList 4 (by decide), slice_toList 3 (by decide), slice_toList 2 (by decide),
    slice_toList 1 (by decide), slice_toList 0 (by decide), slice_toList 3 (by decide), slice_toList 2 (by decide),
    slice_toList 1 (by decide), slice_toList 0 (by decide)]
  simp only [List.take_zero, ofNat_beNat_five, ofNat_beNat_four]

/-- A record that is disabled or meets R8 is accepted (R8, R9). -/
theorem acceptedWindow_eq {m : Mode} (h : m.named bytes[1])
    (hr : (windowWritten m bytes).enable = false ∨ (windowWritten m bytes).valid = true) :
    acceptedWindow bytes.toList = some (windowWritten m bytes) := by
  simp only [acceptedWindow, windowOf_eq h]
  rcases hr with hr | hr <;> simp [hr]

/-- A record whose mode byte names no mode, or that is enabled against R8, is not accepted (R8, R9). -/
theorem acceptedWindow_eq_none (h : 2 < bytes[1].toNat ∨
    ∃ m, Mode.named m bytes[1] ∧ (windowWritten m bytes).enable = true ∧ (windowWritten m bytes).valid = false) :
    acceptedWindow bytes.toList = none := by
  rcases h with h | ⟨m, hm, he, hv⟩
  · have hb : bytes.toList.getD 1 0 = bytes[1] := getD_toList (by decide)
    simp only [acceptedWindow, windowOf, hb, modeOf_eq_none h, Option.map_none]
  · simp [acceptedWindow, windowOf_eq hm, he, hv]

end

/-! ### The write at a free decoder -/

theorem writeForm_window (w : WindowIdx) : writeForm (RecordId.window w).offset 32 = some (.window w, 0) := by
  have form : readForm (RecordId.window w).offset 32 = some (.window w, 0) :=
    (readForm_eq_some_iff (by decide)).mpr ⟨by simp only [RecordId.offset]; omega, by decide, Nat.le_refl _,
      Nat.le_refl _, (Nat.sub_self _).symm⟩
  simp only [writeForm, form]
  rfl

/-- WINDOW_RECORD_WRITE at a free decoder is the write of the record (R7, R10). -/
theorem exec_windowRecordWrite {s : State} (h : s.hostReady) (w : WindowIdx) (bytes : Vector Byte 32) :
    exec (.windowRecordWrite w bytes) s = .next (serveClaims (writeWindow w bytes.toList
      (s.apertureBase + BitVec.ofNat 40 (RecordId.window w).offset) s.writeTaken)) := by
  have length : bytes.toList.length = 32 := bytes.length_toList
  have inAperture : (RecordId.window w).offset < 0x10000 := by
    have := w.isLt
    simp only [RecordId.offset]
    omega
  show Host.Outcome.next (hostWrite (RecordId.window w).offset bytes.toList s) = _
  rw [hostWrite_applied h inAperture (by omega) (by omega) (by rw [length]; exact writeForm_window w) rfl]
  rfl

/-! ### An enabled record -/

section
variable {s : State} {w : WindowIdx} {r : WindowRecord}

theorem applyWindow_hold (he : r.enable = true) (hm : r.mode = .hold) : applyWindow w r s = s.setWindow w r := by
  simp only [applyWindow, he, hm, if_true]

theorem applyWindow_pass (he : r.enable = true) (hm : r.mode = .pass) :
    applyWindow w r s = grantWindows r.portIdx (examineHeads w (s.setWindow w r)) := by
  simp only [applyWindow, he, hm, if_true]

/-- REFUSE and disable end the held requests, each with its answer and its record (R9, R20, R21). -/
theorem applyWindow_ending (h : r.enable = false ∨ r.mode = .refuse) :
    applyWindow w r s = endAllHeld w (if r.enable then .refused else .unclaimed)
      (if r.enable then .windowRefused else .windowDisabled) (s.setWindow w r) := by
  cases he : r.enable with
  | false => simp [applyWindow, he]
  | true =>
    have hm : r.mode = .refuse := by simpa [he] using h
    simp [applyWindow, he, hm]

/-- In a state that grants all it can, a window in PASS with an empty list changes nothing but its record. -/
theorem applyWindow_pass_empty (he : r.enable = true) (hm : r.mode = .pass) (hl : s.holdList w = []) (hd : s.drained) :
    applyWindow w r s = s.setWindow w r := by
  have notDrain : (s.setWindow w r).windowState w ≠ .drain := fun h => (windowState_eq_drain_iff.mp h).2.2 hl
  rw [applyWindow_pass he hm, examineHeads_of_not_drain notDrain]
  cases hf : s.egressFree r.portIdx with
  | false => exact grantWindows_of_full hf
  | true =>
    refine grantWindows_of_unclaimed fun x => ?_
    by_contra hclaim
    simp only [State.windowClaims, Bool.not_eq_false, Bool.and_eq_true, decide_eq_true_eq] at hclaim
    obtain ⟨⟨hx, hport⟩, _⟩ := hclaim
    have hne : w ≠ x := fun e => notDrain (e ▸ hx)
    have window : (s.setWindow w r).window x = s.window x := State.window_setWindow_ne s w r x hne
    have drains : s.windowState x = .drain := by
      rw [windowState_eq_drain_iff, window] at hx
      exact windowState_eq_drain_iff.mpr hx
    obtain ⟨_, _, hne⟩ := windowState_eq_drain_iff.mp drains
    obtain ⟨y, ys, hy⟩ := List.exists_cons_of_ne_nil hne
    obtain ⟨_, full⟩ := hd x y drains (by rw [hy]; rfl)
    rw [window] at hport
    rw [hport, hf] at full
    cases full

end

/-- Settles O42: the write accepted or not by its bytes, and the change of mode applied. -/
theorem windowWriteReplacesTheRecord : Obligations.WindowWriteReplacesTheRecord := by
  unfold Obligations.WindowWriteReplacesTheRecord
  intro s w bytes h
  refine ⟨?_, fun hbad => ?_⟩
  · intro m hm r u he hv
    have applied : exec (.windowRecordWrite w bytes) s = .next (serveClaims (applyWindow w r s.writeTaken)) := by
      rw [exec_windowRecordWrite h]
      simp only [writeWindow, acceptedWindow_eq hm (.inr hv)]
      rfl
    have quiet : serveClaims u = u := serveClaims_afterTaking h rfl rfl rfl rfl rfl fun _ => rfl
    refine ⟨fun hold => ?_, fun pass => ?_, fun pass hl hd => ?_⟩
    · rw [applied, applyWindow_hold he hold, quiet]
    · have noFrame : (grantWindows r.portIdx (examineHeads w u)).ingress = [] := by
        obtain ⟨_, _, _, hi, _⟩ := h
        rw [((examineHeads_branchSide w u).trans (grantWindows_branchSide r.portIdx _)).ingress]
        exact hi
      rw [applied, applyWindow_pass he pass, settle_empty noFrame]
    · rw [applied, applyWindow_pass_empty (s := s.writeTaken) he pass hl hd, quiet]
  · rw [exec_windowRecordWrite h]
    simp only [writeWindow, acceptedWindow_eq_none hbad, serveClaims_recordFault]
    rfl

end Sys2Proof.Machine
end

section
/-! REFUSE and disable: the held requests of a window end, oldest first, with one record that counts them (R9, R20, R21). -/

namespace Sys2Proof.Machine

/-! ### Ending a list of held requests -/

/-- What ending held requests does: the entries `reads`, all in HELD, go to REPLYING with the answer, in order at the tail
of the reply lane; every other entry stays, and nothing outside the ticket table changes (R20, R61, R75). -/
structure HeldEnded (st : Status) (reads : List EntryIdx) (s t : State) : Prop where
  rest : ∃ es so, t = { s with entries := es, sentOrder := so, replyLane := s.replyLane ++ reads }
  answered : ∀ i v, i ∈ reads → (s.entry i).live = some v →
    t.entry i = ⟨(s.entry i).epoch, some { v with stage := .replying none st [] }⟩
  others : ∀ i, i ∉ reads → t.entry i = s.entry i

/-- Every entry of a list is live in HELD. -/
def State.allHeld (s : State) (reads : List EntryIdx) : Prop :=
  ∀ i ∈ reads, ∃ v, (s.entry i).live = some v ∧ v.stage = .held

theorem HeldEnded.nil (st : Status) (s : State) : HeldEnded st [] s s :=
  ⟨⟨_, _, by rw [List.append_nil]⟩, fun _ _ h => absurd h List.not_mem_nil, fun _ _ => rfl⟩

/-- An entry in HELD is answered. -/
theorem heldEnded_toReplying {s : State} {i : EntryIdx} {v : Live} (hv : (s.entry i).live = some v) (hh : v.stage = .held)
    (st : Status) : HeldEnded st [i] s (toReplying i st [] s) := by
  rw [toReplying_live hv (by rw [hh]; rfl)]
  refine ⟨⟨_, _, rfl⟩, fun j u hj hu => ?_, fun j hj => ?_⟩
  · obtain rfl := List.mem_singleton.mp hj
    obtain rfl := Option.some.inj (hv.symm.trans hu)
    refine (State.entry_setEntry_self s j _).trans ?_
    rw [hh]
    rfl
  · exact State.entry_setEntry_ne s i _ j fun e => hj (List.mem_singleton.mpr e.symm)

/-- Answering one entry and then others, all of them different, answers them all. -/
theorem HeldEnded.cons {st : Status} {i : EntryIdx} {reads : List EntryIdx} {s t u : State} (hi : i ∉ reads)
    (h : HeldEnded st [i] s t) (k : HeldEnded st reads t u) : HeldEnded st (i :: reads) s u := by
  refine ⟨?_, fun j v hj hv => ?_, fun j hj => ?_⟩
  · obtain ⟨_, _, rfl⟩ := h.rest
    obtain ⟨es, so, rfl⟩ := k.rest
    exact ⟨es, so, by simp⟩
  · rcases List.mem_cons.mp hj with rfl | hj
    · rw [k.others j hi]
      exact h.answered j v (List.mem_singleton_self j) hv
    · have same : t.entry j = s.entry j :=
        h.others j fun e => hi (List.mem_singleton.mp e ▸ hj)
      rw [k.answered j v hj (by rw [same, hv]), same]
  · rw [List.mem_cons, not_or] at hj
    rw [k.others j hj.2]
    exact h.others j fun e => hj.1 (List.mem_singleton.mp e)

/-- Ending a list of held requests answers its READs, oldest first, and discards its WRITEs (R20). -/
theorem heldEnded_foldl (st : Status) (l : List Held) (s : State) (distinct : (heldReads l).Nodup)
    (held : s.allHeld (heldReads l)) : HeldEnded st (heldReads l) s (l.foldl (fun s h => endHeld st h s) s) := by
  induction l generalizing s with
  | nil => exact .nil st s
  | cons h l ih =>
    simp only [List.foldl_cons]
    cases hb : h.body with
    | write d =>
      have reads : heldReads (h :: l) = heldReads l := by simp [heldReads, hb]
      have keep : endHeld st h s = s := by simp only [endHeld, hb]
      rw [reads] at distinct held ⊢
      rw [keep]
      exact ih s distinct held
    | read i =>
      have reads : heldReads (h :: l) = i :: heldReads l := by simp [heldReads, hb]
      have answer : endHeld st h s = toReplying i st [] s := by simp only [endHeld, hb]
      rw [reads] at distinct held ⊢
      rw [answer]
      obtain ⟨hi, hnodup⟩ := List.nodup_cons.mp distinct
      obtain ⟨v, hv, hh⟩ := held i List.mem_cons_self
      have first := heldEnded_toReplying hv hh st
      refine first.cons hi (ih _ hnodup fun j hj => ?_)
      rw [first.others j fun e => hi (List.mem_singleton.mp e ▸ hj)]
      exact held j (List.mem_cons_of_mem i hj)

/-! ### Where the READs of a hold list stand -/

theorem heldFor_eq_true {e : Entry} {w : WindowIdx} (h : e.heldFor w = true) : ∃ v, e.live = some v ∧ v.stage = .held := by
  unfold Entry.heldFor at h
  cases hl : e.live with
  | none => simp [hl] at h
  | some v =>
    cases hs : v.stage with
    | held => exact ⟨v, rfl, hs⟩
    | queued r | sent r | replying r st d => simp [hl, hs] at h

/-- In a state whose entries stand in their places, the READs of a hold list are different and all in HELD (R25, R66). -/
theorem State.placed.held {s : State} (h : s.placed) (w : WindowIdx) :
    (heldReads (s.holdList w)).Nodup ∧ s.allHeld (heldReads (s.holdList w)) := by
  have count : ∀ i, (heldReads (s.holdList w)).count i = once ((s.entry i).heldFor w) := fun i => by
    obtain ⟨_, held, _⟩ := h i
    exact held w
  refine ⟨List.nodup_iff_count_le_one.mpr fun i => by rw [count i]; exact once_le _, fun i hi => ?_⟩
  have present := List.count_pos_iff.mpr hi
  rw [count i] at present
  refine heldFor_eq_true (w := w) ?_
  by_contra hf
  rw [Bool.not_eq_true] at hf
  rw [hf] at present
  exact absurd present (by decide)

/-! ### A fault where no claimant waits -/

theorem ports_ext {s t : State} (h : ∀ p, t.port p = s.port p) : t.ports = s.ports :=
  Vector.ext fun i hi => h ⟨i, hi⟩

/-- Where no slot is free the arbiter does nothing. -/
theorem serveClaims_of_full {s : State} (h : s.generalFree = false) : serveClaims s = s :=
  serveClaims_of_stuck fun hg => by rw [h] at hg; cases hg

/-- Where no claimant waits for a free slot, a fault leaves the ports: the arbiter serves the event unit alone. -/
theorem recordFault_ports {s : State} (h : s.admitted) (k : FaultKind) (src : FaultSource) (w : Option WindowIdx)
    (t : Option (BitVec 6)) (a : Option HostAddr) (c : Option FaultCount) : (recordFault k src w t a c s).ports = s.ports := by
  refine ports_ext fun p => ?_
  cases hg : s.generalFree with
  | true =>
    refine (recordFault_port k src w t a c s p).still ?_
    simpa [State.claims] using h hg (.branch p)
  | false =>
    rw [recordFault, takeFault_eq, arrival, serveClaims_of_full]
    · rfl
    · exact hg

/-- What a run of ended requests leaves once its count is recorded, if any ended (R20, R21). -/
theorem recordCount_frame {s : State} (h : s.admitted) (k : FaultKind) (w : WindowIdx) (n : Nat) :
    let t := serveClaims (if n = 0 then s else
      recordFault k .management (some w) none none (some (.one (BitVec.ofNat 16 n))) s)
    BranchSide s t ∧ t.holdLists = s.holdLists ∧ t.entries = s.entries ∧ t.replyLane = s.replyLane ∧ t.ports = s.ports ∧
      (s.faultLog.length < 16 → t.faultLog = s.faultLog ++ if n = 0 then [] else
        [⟨k, .management, some w, none, none, some (.one (BitVec.ofNat 16 n)), s.time⟩]) := by
  intro t
  by_cases hn : n = 0
  · have same : t = s := by simp only [t, hn, if_true]; exact serveClaims_of_admitted h
    rw [same]
    exact ⟨.refl s, rfl, rfl, rfl, rfl, fun _ => by rw [if_pos hn, List.append_nil]⟩
  · have recorded : t = recordFault k .management (some w) none none (some (.one (BitVec.ofNat 16 n))) s := by
      simp only [t, hn, if_false, serveClaims_recordFault]
    rw [recorded]
    refine ⟨recordFault_branchSide .., by simp, by simp, by simp, recordFault_ports h .., fun hroom => ?_⟩
    rw [if_neg hn, recordFault_faultLog, if_pos hroom]

/-- Settles O43: the list is ended by `heldEnded_foldl`, and the record is a fault at a router without a claimant. -/
theorem refuseAndDisableEndHeldRequests : Obligations.RefuseAndDisableEndHeldRequests := by
  unfold Obligations.RefuseAndDisableEndHeldRequests
  intro s w bytes m h placed hm r hend held st k
  obtain ⟨distinct, inHeld⟩ := placed.held w
  have accepted : acceptedWindow bytes.toList = some r :=
    acceptedWindow_eq hm (hend.imp id And.left)
  have ending : r.enable = false ∨ r.mode = .refuse := hend.imp id And.right
  let emptied := (s.writeTaken.setWindow w r).setHoldList w []
  let ended := held.foldl (fun s h => endHeld st h s) emptied
  have done : HeldEnded st (heldReads held) emptied ended := heldEnded_foldl st held emptied distinct inHeld
  have applied : exec (.windowRecordWrite w bytes) s = .next (serveClaims (if held.length = 0 then ended else
      recordFault k .management (some w) none none (some (.one (BitVec.ofNat 16 held.length))) ended)) := by
    rw [exec_windowRecordWrite h]
    simp only [writeWindow, accepted, applyWindow_ending ending]
    rfl
  obtain ⟨es, so, rest⟩ := done.rest
  have quiet : ended.admitted := by
    obtain ⟨_, _, _, _, admitted, _⟩ := id h
    rw [rest]
    intro hg c
    cases c with
    | decoder => rfl
    | branch p => exact admitted hg (.branch p)
    | eventUnit => exact admitted hg .eventUnit
  obtain ⟨side, lists, entries, lane, ports, log⟩ := recordCount_frame quiet k w held.length
  refine ⟨_, applied, ?_, fun x hx => ?_, ?_, fun x hx => ?_, ?_, fun i v hi hv => ?_, fun i hi => ?_, fun hroom => ?_,
    ?_, ?_, ?_, ?_⟩
  · rw [State.window, side.windows, rest]
    exact State.window_setWindow_self s.writeTaken w r
  · rw [State.window, side.windows, rest]
    exact State.window_setWindow_ne s.writeTaken w r x (Ne.symm hx)
  · rw [State.holdList, lists, rest]
    exact State.holdList_setHoldList_self (s.writeTaken.setWindow w r) w []
  · rw [State.holdList, lists, rest]
    exact State.holdList_setHoldList_ne (s.writeTaken.setWindow w r) w [] x (Ne.symm hx)
  · rw [lane, rest]
    rfl
  · rw [State.entry, entries]
    exact done.answered i v hi hv
  · rw [State.entry, entries]
    exact done.others i hi
  · rw [log (by rw [rest]; exact hroom), rest]
    simp only [List.length_eq_zero_iff]
    rfl
  · rw [ports, rest]
    rfl
  · rw [side.trunk, rest]
    rfl
  · obtain ⟨_, _, _, noFrame, _⟩ := h
    rw [side.ingress, rest]
    exact noFrame
  · rw [side.time, rest]
    rfl

end Sys2Proof.Machine
end

section
/-! What every operation keeps (O52): enabled records valid, lists of closed windows empty, control fields in range, and every
queue within its slots. `Kept` says it of two states, each bound from its own premise; here it is shown of the operations
that the meanings share and of the branch side. -/

namespace Sys2Proof.Machine

-- The theorems are checked one after the other, which bounds the memory that the check takes.
set_option Elab.async false

/-! ### The relation -/

/-- The bounds of a port carry over from one state of it to the next (R104, R108, R123). -/
structure PortKept (b c : PortBlock) : Prop where
  control : b.autoDoze.toNat ≤ 255 ∧ 10 ≤ b.wakeLimit.toNat → c.autoDoze.toNat ≤ 255 ∧ 10 ≤ c.wakeLimit.toNat
  queue : b.queue.length ≤ 8 → c.queue.length ≤ 8
  buffer : b.buffer.length ≤ 2 → c.buffer.length ≤ 2

theorem PortKept.refl (b : PortBlock) : PortKept b b := ⟨id, id, id⟩

theorem PortKept.trans {b c d : PortBlock} (h : PortKept b c) (k : PortKept c d) : PortKept b d :=
  ⟨k.control ∘ h.control, k.queue ∘ h.queue, k.buffer ∘ h.buffer⟩

/-- Each bound of a state carries over to the next (R3, R9, R23, R59, R65, R96, R136, R160, R167). -/
structure Kept (s t : State) : Prop where
  windows : s.windowsValid → t.windowsValid
  lists : s.listsFit → t.listsFit
  base : s.apertureBase.toNat % 0x10000 = 0 → t.apertureBase.toNat % 0x10000 = 0
  lifetime : 16 ≤ s.ticketLifetime.toNat ∧ s.ticketLifetime.toNat ≤ 1048575 →
    16 ≤ t.ticketLifetime.toNat ∧ t.ticketLifetime.toNat ≤ 1048575
  headWait : s.headWaitLimit.toNat ≤ 65535 → t.headWaitLimit.toNat ≤ 65535
  log : s.logBounded → t.logBounded
  held : s.heldTotal ≤ 16 → t.heldTotal ≤ 16
  writes : s.ingressCount false ≤ 16 → t.ingressCount false ≤ 16
  reads : s.ingressCount true ≤ 8 → t.ingressCount true ≤ 8
  general : s.generalQueue.length ≤ 8 → t.generalQueue.length ≤ 8
  ports : ∀ p, PortKept (s.port p) (t.port p)

theorem Kept.refl (s : State) : Kept s s := ⟨id, id, id, id, id, id, id, id, id, id, fun _ => .refl _⟩

theorem Kept.trans {s t u : State} (h : Kept s t) (k : Kept t u) : Kept s u where
  windows := k.windows ∘ h.windows
  lists := k.lists ∘ h.lists
  base := k.base ∘ h.base
  lifetime := k.lifetime ∘ h.lifetime
  headWait := k.headWait ∘ h.headWait
  log := k.log ∘ h.log
  held := k.held ∘ h.held
  writes := k.writes ∘ h.writes
  reads := k.reads ∘ h.reads
  general := k.general ∘ h.general
  ports p := (h.ports p).trans (k.ports p)

theorem Kept.controlValid {s t : State} (h : Kept s t) : s.controlValid → t.controlValid := by
  rintro ⟨hb, hl1, hl2, hw, hp⟩
  obtain ⟨hl1', hl2'⟩ := h.lifetime ⟨hl1, hl2⟩
  exact ⟨h.base hb, hl1', hl2', h.headWait hw, fun p => (h.ports p).control (hp p)⟩

theorem Kept.queuesBounded {s t : State} (h : Kept s t) : s.queuesBounded → t.queuesBounded := by
  rintro ⟨hh, hw, hr, hg, hp⟩
  refine ⟨h.held hh, h.writes hw, h.reads hr, h.general hg, fun p => ?_⟩
  obtain ⟨hq, hb⟩ := hp p
  exact ⟨(h.ports p).queue hq, (h.ports p).buffer hb⟩

/-! ### Hold lists in sum -/

/-- The hold count of all windows is the sum over their indices. -/
theorem heldTotal_eq_sum (s : State) : s.heldTotal = ∑ w : WindowIdx, (s.holdList w).length := by
  have lists : s.holdLists.toList = List.ofFn fun w : WindowIdx => s.holdList w := by
    apply List.ext_getElem
    · simp
    · intro i h1 h2
      rw [List.getElem_ofFn, Vector.getElem_toList]
      rfl
  rw [State.heldTotal, lists, List.map_ofFn, List.sum_ofFn]
  rfl

/-- Replacing one list changes the sum by that list alone. -/
theorem heldTotal_setHoldList (s : State) (w : WindowIdx) (l : List Held) :
    (s.setHoldList w l).heldTotal + (s.holdList w).length = s.heldTotal + l.length := by
  have others : ∑ x ∈ Finset.univ.erase w, ((s.setHoldList w l).holdList x).length =
      ∑ x ∈ Finset.univ.erase w, (s.holdList x).length :=
    Finset.sum_congr rfl fun x hx => by rw [State.holdList_setHoldList_ne s w l x (Ne.symm (Finset.ne_of_mem_erase hx))]
  have self : ((s.setHoldList w l).holdList w).length = l.length := by rw [State.holdList_setHoldList_self]
  rw [heldTotal_eq_sum, heldTotal_eq_sum, ← Finset.add_sum_erase _ _ (Finset.mem_univ w),
    ← Finset.add_sum_erase Finset.univ (fun x => (s.holdList x).length) (Finset.mem_univ w), others, self]
  omega

/-! ### Shorter queues -/

/-- An operation that leaves the records and the control fields, and makes no list and no ingress count longer, keeps what
its log, general queue and ports keep. -/
theorem Kept.of_shorter {s t : State}
    (windows : t.windows = s.windows := by rfl)
    (base : t.apertureBase = s.apertureBase := by rfl)
    (lifetime : t.ticketLifetime = s.ticketLifetime := by rfl)
    (headWait : t.headWaitLimit = s.headWaitLimit := by rfl)
    (lists : ∀ w, (t.holdList w).length ≤ (s.holdList w).length := by exact fun _ => Nat.le_refl _)
    (ingress : ∀ r, t.ingressCount r ≤ s.ingressCount r := by exact fun _ => Nat.le_refl _)
    (log : s.logBounded → t.logBounded := by exact id)
    (general : s.generalQueue.length ≤ 8 → t.generalQueue.length ≤ 8 := by exact id)
    (ports : ∀ p, PortKept (s.port p) (t.port p) := by exact fun _ => .refl _) : Kept s t where
  windows h w := by rw [State.window, windows]; exact h w
  lists h w := by
    rw [State.window, windows]
    intro hw
    have empty := lists w
    rw [h w hw, List.length_nil, Nat.le_zero, List.length_eq_zero_iff] at empty
    exact empty
  base := by rw [base]; exact id
  lifetime := by rw [lifetime]; exact id
  headWait := by rw [headWait]; exact id
  log := log
  held h := by
    rw [heldTotal_eq_sum] at h ⊢
    exact Nat.le_trans (Finset.sum_le_sum fun w _ => lists w) h
  writes h := Nat.le_trans (ingress false) h
  reads h := Nat.le_trans (ingress true) h
  general := general
  ports := ports

/-- A run of operations that each keep the bounds keeps them. -/
theorem kept_foldl {α : Type} {f : State → α → State} (h : ∀ s x, Kept s (f s x)) (l : List α) (s : State) :
    Kept s (l.foldl f s) := by
  induction l generalizing s with
  | nil => exact .refl s
  | cons x l ih => exact (h s x).trans (ih _)

/-! ### Ports, links and lines -/

section
variable {s : State} {p : PortIdx}

theorem portKept_setPort {b : PortBlock} (h : PortKept (s.port p) b) (k : PortIdx) :
    PortKept (s.port k) ((s.setPort p b).port k) := by
  rw [State.port_setPort]
  split
  · rename_i hk
    rw [← hk]
    exact h
  · exact .refl _

theorem kept_setPort {b : PortBlock} (h : PortKept (s.port p) b) : Kept s (s.setPort p b) :=
  .of_shorter (ports := portKept_setPort h)

end

theorem kept_modPort (p : PortIdx) {f : PortBlock → PortBlock} (h : ∀ b, PortKept b (f b)) (s : State) :
    Kept s (s.modPort p f) := kept_setPort (h _)

theorem kept_modLink (l : Link) (f : LinkEnd → LinkEnd) (s : State) : Kept s (s.modLink l f) := by
  cases l with
  | trunk => exact .of_shorter
  | branch p => exact kept_setPort ⟨id, id, id⟩

theorem kept_setLine (i : LineIdx) (l : EventLine) (s : State) : Kept s (s.setLine i l) := .of_shorter

theorem kept_consume (l : Link) (c : CreditClass) (s : State) : Kept s (s.consume l c) := kept_modLink ..

theorem kept_refreshIdle (p : PortIdx) (s : State) : Kept s (refreshIdle p s) := by
  obtain e | ⟨_, _, e⟩ | ⟨_, e⟩ := refreshIdle_cases p s <;> rw [e]
  · exact .refl s
  · exact kept_setPort ⟨id, id, id⟩
  · exact kept_setPort ⟨id, id, id⟩

theorem kept_enterDozeWait (p : PortIdx) (s : State) : Kept s (enterDozeWait p s) := kept_setPort ⟨id, id, id⟩

theorem kept_enterWaking (started : Bool) (p : PortIdx) (s : State) : Kept s (enterWaking started p s) := by
  unfold enterWaking
  refine Kept.trans ?_ (kept_modLink ..)
  exact kept_setPort ⟨id, id, id⟩

/-! ### The admission arbiter and faults -/

/-- A free slot of the general queue takes a frame (R136). -/
theorem general_room {s : State} (h : s.generalFree = true) (f : GeneralFrame) : (s.generalQueue ++ [f]).length ≤ 8 := by
  simp only [State.generalFree, Bool.and_eq_true, decide_eq_true_eq] at h
  rw [List.length_append, List.length_singleton]
  exact h.2

theorem kept_grantBranch {s : State} (h : s.generalFree = true) (p : PortIdx) : Kept s (grantBranch p s) := by
  unfold grantBranch
  split
  · exact .refl s
  · rename_i w rest hb
    have shorter : PortKept (s.port p) { s.port p with buffer := rest } :=
      ⟨id, id, fun hl => by rw [hb, List.length_cons] at hl; exact Nat.le_of_succ_le hl⟩
    have placed : Kept s (placeGeneral (.write w) { s.modPort p (fun b => { b with buffer := rest }) with arbLast := .branch p }) :=
      .of_shorter (general := fun _ => general_room h _) (ports := portKept_setPort shorter)
    exact placed.trans ((kept_consume ..).trans (kept_refreshIdle ..))

theorem kept_grantEvent {s : State} (h : s.generalFree = true) : Kept s (grantEvent s) := by
  unfold grantEvent
  split
  · exact .refl s
  · exact .of_shorter (general := fun _ => general_room h _)

theorem kept_serveLoop (n : Nat) (s : State) : Kept s (serveLoop n s) := by
  induction n generalizing s with
  | zero => exact .refl s
  | succ n ih =>
    simp only [serveLoop]
    split
    · rename_i hg
      split
      · exact (kept_grantBranch hg _).trans (ih _)
      · exact (kept_grantEvent hg).trans (ih _)
      · exact .refl s
      · exact .refl s
    · exact .refl s

/-- The admission arbiter fills free slots alone (R141). -/
theorem kept_serveClaims (s : State) : Kept s (serveClaims s) := kept_serveLoop ..

theorem kept_arrival (i : LineIdx) (s : State) : Kept s (arrival i s) := (kept_setLine ..).trans (kept_serveClaims _)

/-- The log takes a fault only where it has room (R160). -/
theorem kept_takeFault (r : FaultRecord) (s : State) : Kept s (takeFault r s) := by
  rw [takeFault_eq]
  refine .of_shorter (log := fun h => ?_)
  simp only [State.logBounded] at h ⊢
  split
  · rename_i hroom
    rw [List.length_append, List.length_singleton]
    exact hroom
  · exact h

theorem kept_recordFault (k : FaultKind) (src : FaultSource) (w : Option WindowIdx) (t : Option (BitVec 6))
    (a : Option HostAddr) (c : Option FaultCount) (s : State) : Kept s (recordFault k src w t a c s) :=
  (kept_takeFault ..).trans (kept_arrival ..)

/-! ### Received frames -/

theorem kept_discardFrame (l : Link) (s : State) : Kept s (discardFrame l s) := kept_modLink ..

theorem kept_frameInvalid (l : Link) (kind : Byte) (c : Option CreditClass) (s : State) :
    Kept s (frameInvalid l kind c s) := by
  unfold frameInvalid
  cases c with
  | none => exact (kept_discardFrame l s).trans (kept_recordFault ..)
  | some c => exact (kept_discardFrame l s).trans ((kept_consume ..).trans (kept_recordFault ..))

theorem kept_creditOverrun (l : Link) (c : CreditClass) (t : Option (BitVec 6)) (a : HostAddr) (s : State) :
    Kept s (creditOverrun l c t a s) :=
  (kept_discardFrame l s).trans ((kept_consume ..).trans (kept_recordFault ..))

theorem kept_dueSync (l : Link) (s : State) : Kept s (dueSync l s) := by
  unfold dueSync sendSync
  split <;> exact kept_modLink ..

theorem kept_setTraining (l : Link) (s : State) : Kept s (setTraining l s) := by
  cases l with
  | trunk => exact .of_shorter
  | branch p => exact kept_setPort ⟨id, id, id⟩

/-- A link's entry to TRAINING (R87). -/
theorem kept_startTraining (l : Link) (s : State) : Kept s (startTraining l s) :=
  (kept_setTraining l s).trans ((kept_modLink ..).trans (kept_dueSync ..))

theorem kept_crcFail (l : Link) (s : State) : Kept s (crcFail l s) := by
  unfold crcFail
  split
  · exact .refl s
  · exact (kept_modLink ..).trans ((kept_recordFault ..).trans (kept_startTraining ..))
  · exact kept_modLink ..
  · exact kept_modLink ..
  · exact kept_modLink ..

/-- A frame that arrives keeps the bounds where what each link state does with it keeps them. -/
theorem kept_receive {training live doze waking : State → State} (l : Link) (size : Nat)
    (ht : ∀ u, Kept u (training u)) (hl : ∀ u, Kept u (live u)) (hd : ∀ u, Kept u (doze u)) (hw : ∀ u, Kept u (waking u))
    (s : State) : Kept s (receive l size training live doze waking s) := by
  have counted : Kept s (s.modLink l LinkEnd.countIn) := kept_modLink ..
  unfold receive
  split
  · simp only
    split
    · exact .refl s
    · exact counted.trans (ht _)
    · exact counted.trans (hl _)
    · exact counted.trans (hd _)
    · exact counted.trans (hw _)
  · exact kept_crcFail l s

/-! ### Entries and held requests -/

theorem kept_toReplying (i : EntryIdx) (st : Status) (data : List Byte) (s : State) : Kept s (toReplying i st data s) := by
  obtain ⟨e, _⟩ | ⟨_, _, _, e⟩ := toReplying_cases i st data s <;> rw [e]
  · exact .refl s
  · exact .of_shorter

theorem kept_endHeld (st : Status) (h : Held) (s : State) : Kept s (endHeld st h s) := by
  unfold endHeld
  split
  · exact kept_toReplying ..
  · exact .refl s

theorem kept_setStage (i : EntryIdx) (st : Stage) (s : State) : Kept s (setStage i st s) := .of_shorter

/-- A list made shorter. -/
theorem kept_setHoldList {s : State} {w : WindowIdx} {l : List Held} (h : l.length ≤ (s.holdList w).length) :
    Kept s (s.setHoldList w l) := by
  refine .of_shorter (lists := fun x => ?_)
  by_cases hx : w = x
  · subst hx; rw [State.holdList_setHoldList_self]; exact h
  · rw [State.holdList_setHoldList_ne s w l x hx]

theorem kept_failRun (w : WindowIdx) (n : Nat) (s : State) : Kept s (failRun w n s) := by
  induction n generalizing s with
  | zero => exact .refl s
  | succ n ih =>
    simp only [failRun]
    split
    · split
      · exact .refl s
      · rename_i h rest hl
        split
        · exact .refl s
        · have shorter : Kept s (s.setHoldList w rest) := kept_setHoldList (by simp [hl])
          exact shorter.trans ((kept_endHeld ..).trans ((kept_recordFault ..).trans (ih _)))
    · exact .refl s

theorem kept_examineHeads (w : WindowIdx) (s : State) : Kept s (examineHeads w s) := kept_failRun ..

theorem kept_examineAll (s : State) : Kept s (examineAll s) := kept_foldl (fun s w => kept_examineHeads w s) _ s

theorem kept_examinePort (p : PortIdx) (s : State) : Kept s (examinePort p s) :=
  kept_foldl (fun s w => by split; exacts [kept_examineHeads w s, .refl s]) _ s

/-! ### Branch egress queues -/

theorem portKept_withRequest {b : PortBlock} (h : b.queue.length < 8) (q : Queued) (now : Time) :
    PortKept b (b.withRequest q now) := by
  obtain ⟨queue, buffer⟩ := withRequest_queue b q now
  refine ⟨?_, fun _ => by rw [queue, List.length_append]; exact h, by rw [buffer]; exact id⟩
  unfold PortBlock.withRequest
  split <;> exact id

theorem egress_room {s : State} {p : PortIdx} (h : s.egressFree p = true) : (s.port p).queue.length < 8 := by
  simp only [State.egressFree, Bool.and_eq_true, decide_eq_true_eq] at h
  exact h.2

/-- A request placed where a slot is free (R108). -/
theorem kept_placeEgress {s : State} {p : PortIdx} (h : (s.port p).queue.length < 8) (q : Queued) :
    Kept s (placeEgress p q s) := by
  rw [placeEgress_eq]
  exact kept_setPort (portKept_withRequest h q _)

theorem kept_release {s : State} {w : WindowIdx} (h : s.egressFree (s.window w).portIdx = true) :
    Kept s (release w s) := by
  cases hl : s.holdList w with
  | nil => simp only [release, hl]; exact .refl s
  | cons x rest =>
    have shorter : Kept s (s.setHoldList w rest) := kept_setHoldList (by simp [hl])
    cases hb : x.body with
    | write d =>
      rw [release_write hl hb]
      exact shorter.trans (kept_placeEgress (s := s.setHoldList w rest) (egress_room (s := s) h) _)
    | read i =>
      rw [release_read hl hb]
      exact shorter.trans ((kept_setStage ..).trans
        (kept_placeEgress (s := setStage i _ (s.setHoldList w rest)) (egress_room (s := s) h) _))

theorem kept_grantLoop (p : PortIdx) (n : Nat) (s : State) : Kept s (grantLoop p n s) := by
  induction n generalizing s with
  | zero => exact .refl s
  | succ n ih =>
    simp only [grantLoop]
    split
    · rename_i hf
      split
      · rename_i w hc
        have claims := List.find?_some hc
        simp only [State.windowClaims, Bool.and_eq_true, decide_eq_true_eq] at claims
        obtain ⟨⟨_, port⟩, _⟩ := claims
        exact (kept_release (by rw [port]; exact hf)).trans ((kept_examineHeads ..).trans (ih _))
      · exact .refl s
    · exact .refl s

/-- The branch egress slot arbiter fills free slots alone (R34). -/
theorem kept_grantWindows (p : PortIdx) (s : State) : Kept s (grantWindows p s) := kept_grantLoop ..

theorem kept_grantAll (s : State) : Kept s (grantAll s) := kept_foldl (fun s p => kept_grantWindows p s) _ s

theorem kept_flush (st : PortState) (p : PortIdx) (s : State) : Kept s (flush st p s) := by
  have silenced : Kept s (((s.flushAnswers p).foldl (fun s i => toReplying i .unclaimed [] s) s).modPort p
      (PortBlock.silence st)) :=
    (kept_foldl (fun s i => kept_toReplying i .unclaimed [] s) _ s).trans
      (kept_modPort (f := PortBlock.silence st) p (fun _ => ⟨id, fun _ => Nat.zero_le _, fun _ => Nat.zero_le _⟩) _)
  unfold flush
  simp only
  split
  · exact silenced
  · exact silenced.trans (kept_recordFault ..)

/-- A port's entry to DOWN or OFF (R35, R111). -/
theorem kept_portDown (st : PortState) (cause : Option FaultKind) (p : PortIdx) (s : State) :
    Kept s (portDown st cause p s) := by
  unfold portDown
  cases cause with
  | none => exact (kept_flush ..).trans (kept_examinePort ..)
  | some k => exact (kept_recordFault ..).trans ((kept_flush ..).trans (kept_examinePort ..))

theorem kept_portFail (cause : FaultKind) (p : PortIdx) (s : State) : Kept s (portFail cause p s) :=
  (kept_portDown ..).trans (kept_modLink ..)

/-! ### Trunk loss -/

theorem port_dropReads (s : State) (p : PortIdx) :
    (dropReads s).port p = { s.port p with queue := (s.port p).queue.filter fun x => !x.body.isRead } := by
  simp [State.port, dropReads]

theorem holdList_dropReads (s : State) (w : WindowIdx) :
    (dropReads s).holdList w = (s.holdList w).filter fun x => !x.body.isRead := by
  simp [State.holdList, dropReads]

theorem kept_dropReads (s : State) : Kept s (dropReads s) := by
  refine .of_shorter (lists := fun w => ?_) (ports := fun p => ?_)
  · rw [holdList_dropReads]
    exact List.length_filter_le ..
  · rw [port_dropReads]
    exact ⟨id, fun h => Nat.le_trans (List.length_filter_le ..) h, id⟩

theorem kept_dropIngress (s : State) : Kept s (dropIngress s) := .of_shorter (ingress := fun _ => Nat.zero_le _)

theorem kept_loseRequests (s : State) : Kept s (loseRequests s) := by
  have down : Kept s { s with trunkState := .down, trunk := s.trunk.silence } := .of_shorter
  have freed : ∀ u, Kept u (freeEntries u) := fun _ => .of_shorter
  exact down.trans ((kept_dropIngress _).trans ((freed _).trans ((kept_dropReads _).trans (kept_grantAll _))))

theorem kept_recordLoss (cause : FaultKind) (n : Nat) (s : State) : Kept s (recordLoss cause n s) := by
  have emptied : Kept s { s with generalQueue := [], lines := mapVec EventLine.renotify s.lines } :=
    .of_shorter (general := fun _ => Nat.zero_le _)
  exact emptied.trans ((kept_recordFault ..).trans .of_shorter)

theorem kept_trunkLoss (cause : FaultKind) (s : State) : Kept s (trunkLoss cause s) :=
  (kept_loseRequests s).trans ((kept_recordLoss ..).trans (kept_foldl (fun s p => kept_refreshIdle p s) _ _))

end Sys2Proof.Machine
end

section
/-! What the management unit and the decoder keep (O52). -/

namespace Sys2Proof.Machine

-- The theorems are checked one after the other, which bounds the memory that the check takes.
set_option Elab.async false

/-! ### The cleared router and the blank state -/

theorem heldTotal_eq_zero {s : State} (h : ∀ w, s.holdList w = []) : s.heldTotal = 0 := by
  rw [heldTotal_eq_sum]
  exact Finset.sum_eq_zero fun w _ => by rw [h w]; rfl

/-- The default control fields lie in their ranges (R59, R65, R103, R104). -/
theorem defaults_in_range :
    (16 ≤ Config.defaultLifetime.toNat ∧ Config.defaultLifetime.toNat ≤ 1048575) ∧ Config.defaultHeadWait.toNat ≤ 65535 ∧
      10 ≤ Config.defaultWakeLimit.toNat := by
  decide

theorem portKept_off (b : PortBlock) (signal : Bool) : PortKept b (.off signal) :=
  ⟨fun _ => ⟨Nat.zero_le _, defaults_in_range.2.2⟩, fun _ => Nat.zero_le _, fun _ => Nat.zero_le _⟩

/-- ROUTER RESET leaves zeroed records, empty queues and the default control fields (R180). -/
theorem kept_clearRouter (s : State) : Kept s (clearRouter s) := by
  have window : ∀ w, (clearRouter s).window w = .zero := fun w => by simp [State.window, clearRouter]
  have holdList : ∀ w, (clearRouter s).holdList w = [] := fun w => by simp [State.holdList, clearRouter]
  exact {
    windows := fun _ w he => by rw [window] at he; cases he
    lists := fun _ w _ => holdList w
    base := id
    lifetime := fun _ => defaults_in_range.1
    headWait := fun _ => defaults_in_range.2.1
    log := fun _ => Nat.zero_le _
    held := fun _ => by rw [heldTotal_eq_zero holdList]; decide
    writes := id
    reads := id
    general := fun _ => Nat.zero_le _
    ports := fun p => by rw [port_clearRouter]; exact portKept_off .. }

theorem strapDefault_aligned (strap : BitVec 2) : (Config.strapDefault strap).toNat % 0x10000 = 0 := by
  revert strap
  decide

/-- The power-on state meets every bound (R184, R185). -/
theorem kept_blank (s : State) (porN : Bool) (strap : BitVec 2) (q : List Instr) : Kept s (State.blank porN strap q) where
  windows _ w he := by rw [window_blank] at he; cases he
  lists _ w _ := holdList_blank porN strap q w
  base _ := strapDefault_aligned strap
  lifetime _ := defaults_in_range.1
  headWait _ := defaults_in_range.2.1
  log _ := Nat.zero_le _
  held _ := by rw [heldTotal_eq_zero (holdList_blank porN strap q)]; decide
  writes _ := Nat.zero_le _
  reads _ := Nat.zero_le _
  general _ := Nat.zero_le _
  ports p := by rw [port_blank]; exact portKept_off ..

/-! ### Window records -/

/-- A record that is accepted is valid where it is enabled (R8, R9). -/
theorem acceptedWindow_valid {data : List Byte} {r : WindowRecord} (h : acceptedWindow data = some r) :
    r.enable = true → r.valid = true := by
  unfold acceptedWindow at h
  split at h
  · split at h
    · rename_i hv
      obtain rfl := Option.some.inj h
      intro he
      simpa [he] using hv
    · cases h
  · cases h

/-- A record and a list replaced together, where the list is one that the record may hold. -/
theorem kept_setWindow_setHoldList {s : State} {w : WindowIdx} {r : WindowRecord} {l : List Held}
    (hv : r.enable = true → r.valid = true) (hl : l.length ≤ (s.holdList w).length)
    (hfit : r.enable = false ∨ r.mode = .refuse → l = []) : Kept s ((s.setWindow w r).setHoldList w l) := by
  have bounds : Kept (s.setWindow w r) ((s.setWindow w r).setHoldList w l) := kept_setHoldList hl
  have window : ∀ x, ((s.setWindow w r).setHoldList w l).window x = if w = x then r else s.window x := by
    intro x
    rw [State.window_setHoldList]
    split
    · rename_i hx; subst hx; exact State.window_setWindow_self s w r
    · rename_i hx; exact State.window_setWindow_ne s w r x hx
  refine { Kept.refl s with windows := fun h x => ?_, lists := fun h x => ?_, held := bounds.held }
  · rw [window]
    split
    · exact hv
    · exact h x
  · rw [window]
    split
    · rename_i hx
      subst hx
      rw [State.holdList_setHoldList_self]
      exact hfit
    · rename_i hx
      rw [State.holdList_setHoldList_ne _ _ _ _ hx]
      exact h x

/-- An accepted write of a record (R10, R18 to R22, R32). -/
theorem kept_applyWindow {w : WindowIdx} {r : WindowRecord} (hv : r.enable = true → r.valid = true) (s : State) :
    Kept s (applyWindow w r s) := by
  have replaced : r.enable = true → r.mode ≠ .refuse → Kept s (s.setWindow w r) := by
    intro he hm
    have same : (s.setWindow w r).setHoldList w (s.holdList w) = s.setWindow w r := State.setHoldList_holdList _ w
    rw [← same]
    refine kept_setWindow_setHoldList hv (Nat.le_refl _) fun h => ?_
    rcases h with h | h
    · rw [he] at h; cases h
    · exact absurd h hm
  by_cases ending : r.enable = false ∨ r.mode = .refuse
  · have emptied : Kept s ((s.setWindow w r).setHoldList w []) :=
      kept_setWindow_setHoldList hv (Nat.zero_le _) fun _ => rfl
    have ended := emptied.trans (kept_foldl (fun s h => kept_endHeld (if r.enable then .refused else .unclaimed) h s)
      ((s.setWindow w r).holdList w) _)
    rw [applyWindow_ending ending, endAllHeld]
    split
    · exact ended
    · exact ended.trans (kept_recordFault ..)
  · obtain ⟨he, hm⟩ := not_or.mp ending
    rw [Bool.not_eq_false] at he
    cases hmode : r.mode with
    | refuse => exact absurd hmode hm
    | hold => rw [applyWindow_hold he hmode]; exact replaced he hm
    | pass =>
      rw [applyWindow_pass he hmode]
      exact (replaced he hm).trans ((kept_examineHeads ..).trans (kept_grantWindows ..))

theorem kept_writeWindow (w : WindowIdx) (data : List Byte) (a : HostAddr) (s : State) :
    Kept s (writeWindow w data a s) := by
  unfold writeWindow
  split
  · rename_i r hr
    exact kept_applyWindow (acceptedWindow_valid hr) s
  · exact kept_recordFault ..

/-! ### Fields -/

/-- A field keeps the bounds where every value that the WRITE can carry for it does. -/
theorem kept_withField {v : Option Nat} {f : Nat → State → State} (h : ∀ n, v = some n → ∀ s, Kept s (f n s)) (s : State) :
    Kept s (withField v f s) := by
  cases v with
  | none => exact .refl s
  | some n => exact h n rfl s

/-- A valid field meets its condition with the value that the WRITE carries (R172). -/
theorem of_fieldIs {v : Option Nat} {c : Nat → Bool} {n : Nat} (h : fieldIs v c = true) (hv : v = some n) : c n = true := by
  rw [hv] at h
  exact h

/-- A WRITE of valid values to the router control record keeps its ranges (R59, R65, R167). -/
theorem kept_writeControl {at' : Nat} {data : List Byte} (h : validFields .control at' data = true) (s : State) :
    Kept s (writeControl at' data s) := by
  simp only [validFields, Bool.and_eq_true] at h
  obtain ⟨⟨⟨base, lifetime⟩, headWait⟩, _⟩ := h
  unfold writeControl
  refine (kept_withField (fun n hn s => ?_) s).trans ((kept_withField (fun n hn s => ?_) _).trans
    ((kept_withField (fun n hn s => ?_) _).trans (kept_withField (fun n _ s => ?_) _)))
  · have hc := of_fieldIs base hn
    simp only [Bool.and_eq_true, decide_eq_true_eq, beq_iff_eq] at hc
    obtain ⟨hlt, haligned⟩ := hc
    refine { Kept.refl s with base := fun _ => ?_ }
    rw [BitVec.toNat_ofNat, Nat.mod_eq_of_lt hlt]
    exact haligned
  · have hc := of_fieldIs lifetime hn
    simp only [Bool.and_eq_true, decide_eq_true_eq] at hc
    refine { Kept.refl s with lifetime := fun _ => ?_ }
    rw [BitVec.toNat_ofNat, Nat.mod_eq_of_lt (by omega)]
    exact hc
  · have hc := of_fieldIs headWait hn
    simp only [decide_eq_true_eq] at hc
    refine { Kept.refl s with headWait := fun _ => ?_ }
    rw [BitVec.toNat_ofNat, Nat.mod_eq_of_lt (by omega)]
    exact hc
  · split
    · exact kept_clearRouter s
    · exact .refl s

theorem kept_clearCounters (at' : Nat) (data : List Byte) (base : Nat) (l : Link) (s : State) :
    Kept s (clearCounters at' data base l s) := by
  have clear : ∀ field f u, Kept u (clearCounter at' data field f l u) := fun _ _ u =>
    kept_withField (fun _ _ _ => kept_modLink ..) u
  unfold clearCounters
  exact (clear ..).trans ((clear ..).trans ((clear ..).trans (clear ..)))

/-! ### Branch ports -/

theorem kept_setResult (p : PortIdx) (r : CommandResult) (s : State) : Kept s (setResult p r s) := kept_setPort ⟨id, id, id⟩

theorem kept_writeEnable (p : PortIdx) (on : Bool) (s : State) : Kept s (writeEnable p on s) := by
  unfold writeEnable
  split
  · split
    · exact (kept_startTraining ..).trans (kept_grantWindows ..)
    · exact .refl s
  · split
    · exact .refl s
    · exact kept_portDown ..

theorem kept_writeInterval {v : BitVec 16} (h : v.toNat ≤ 255) (p : PortIdx) (s : State) : Kept s (writeInterval p v s) := by
  have written : Kept s (s.modPort p fun b => { b with autoDoze := v }) :=
    kept_setPort ⟨fun ⟨_, hw⟩ => ⟨h, hw⟩, id, id⟩
  unfold writeInterval
  simp only
  split
  · exact written.trans (kept_setPort ⟨id, id, id⟩)
  · exact written

theorem kept_portCommand (p : PortIdx) (code : Nat) (s : State) : Kept s (portCommand p code s) := by
  unfold portCommand
  split
  · unfold commandDoze
    split
    · simp only
      split
      · exact (kept_setResult ..).trans (kept_enterDozeWait ..)
      · exact (kept_setResult ..).trans (kept_setPort ⟨id, id, id⟩)
    · exact kept_setResult ..
  · split
    · unfold commandWake
      split
      · exact (kept_setResult ..).trans (kept_enterWaking ..)
      · exact kept_setResult ..
    · split
      · unfold commandReset
        split
        · exact kept_setResult ..
        · exact (kept_setResult ..).trans ((kept_portDown ..).trans ((kept_startTraining ..).trans (kept_grantWindows ..)))
      · exact .refl s

/-- A WRITE of valid values to a branch port record keeps its ranges (R104). -/
theorem kept_writePort {p : PortIdx} {at' : Nat} {data : List Byte} (h : validFields (.port p) at' data = true) (s : State) :
    Kept s (writePort p at' data s) := by
  simp only [validFields, Bool.and_eq_true] at h
  obtain ⟨⟨⟨⟨_, _⟩, interval⟩, wakeLimit⟩, _⟩ := h
  unfold writePort
  refine (kept_withField (fun _ _ _ => kept_writeEnable ..) s).trans ((kept_withField (fun _ _ s => ?upWrite) _).trans
    ((kept_withField (fun n hn s => ?interval) _).trans ((kept_withField (fun n hn s => ?wakeLimit) _).trans
      ((kept_withField (fun _ _ s => ?offset) _).trans ((kept_clearCounters ..).trans
        ((kept_withField (fun _ _ s => ?stale) _).trans (kept_withField (fun _ _ _ => kept_portCommand ..) _)))))))
  case upWrite | offset | stale => exact kept_setPort ⟨id, id, id⟩
  case interval =>
    have hc := of_fieldIs interval hn
    simp only [decide_eq_true_eq] at hc
    exact kept_writeInterval (by rw [BitVec.toNat_ofNat, Nat.mod_eq_of_lt (by omega)]; exact hc) p s
  case wakeLimit =>
    have hc := of_fieldIs wakeLimit hn
    simp only [Bool.and_eq_true, decide_eq_true_eq] at hc
    have hw : 10 ≤ (BitVec.ofNat 16 n).toNat := by rw [BitVec.toNat_ofNat, Nat.mod_eq_of_lt (by omega)]; exact hc.1
    exact kept_setPort ⟨fun ⟨ha, _⟩ => ⟨ha, hw⟩, id, id⟩

/-! ### A management request -/

theorem kept_writeLine (i : LineIdx) (at' : Nat) (data : List Byte) (s : State) : Kept s (writeLine i at' data s) := by
  unfold writeLine
  exact (kept_withField (fun _ _ _ => kept_setLine ..) s).trans ((kept_withField (fun _ _ _ => kept_setLine ..) _).trans
    ((kept_serveClaims _).trans ((kept_withField (fun _ _ _ => kept_setLine ..) _).trans (kept_serveClaims _))))

theorem kept_writeLogControl (at' : Nat) (data : List Byte) (s : State) : Kept s (writeLogControl at' data s) := by
  have popped : ∀ u, Kept u (popLog u) := fun u => .of_shorter (log := fun h => by
    simp only [popLog, State.logBounded, List.length_tail] at h ⊢
    omega)
  unfold writeLogControl
  refine (kept_withField (fun _ _ _ => .of_shorter) s).trans (kept_withField (fun _ _ u => ?_) _)
  split
  · exact popped u
  · exact .refl u

/-- What the management unit does with a WRITE (R172 to R174). -/
theorem kept_manageWrite (a : HostAddr) (data : List Byte) (s : State) : Kept s (manageWrite a data s) := by
  unfold manageWrite
  simp only
  split
  · rename_i r at' _
    split
    · rename_i valid
      cases r with
      | window w => exact kept_writeWindow ..
      | control => exact kept_writeControl valid s
      | port p => exact kept_writePort valid s
      | trunk => exact kept_clearCounters ..
      | line i => exact kept_writeLine ..
      | logControl => exact kept_writeLogControl ..
      | identity | routerTime | view i | logHead => exact .refl s
    · exact kept_recordFault ..
  · exact kept_recordFault ..

/-- A management READ is answered in a free slot (R56, R142). -/
theorem kept_manageRead {s : State} (h : s.generalFree = true) (t : BitVec 6) (a : HostAddr) (n : Nat) :
    Kept s (manageRead t a n s) := by
  have placed : ∀ f, Kept s (placeGeneral f { s with arbLast := .decoder }) := fun f =>
    .of_shorter (general := fun _ => general_room h f)
  unfold manageRead
  simp only
  split
  · exact placed _
  · exact (placed _).trans (kept_recordFault ..)

/-! ### The decoder -/

/-- The count of a kind of frame after another frame joined the queue. -/
theorem ingressCount_append (s : State) (f : HostFrame) (r : Bool) :
    ({ s with ingress := s.ingress ++ [f] } : State).ingressCount r = s.ingressCount r + once (f.body.isRead == r) := by
  simp only [State.ingressCount, List.filter_append, List.length_append]
  cases hr : f.body.isRead == r <;> simp [hr, once]

theorem kept_popHead (f : HostFrame) (s : State) : Kept s (popHead f s) := by
  have popped : Kept s { s with ingress := s.ingress.tail, decoder := .clear } :=
    .of_shorter (ingress := fun _ => ((List.tail_sublist s.ingress).filter _).length_le)
  exact popped.trans (kept_consume ..)

theorem kept_allocateFree {f : HostFrame} {t : BitVec 6} {w : Option WindowIdx} {st : Stage}
    {next : EntryIdx → State → State} {s : State}
    (h : ∀ i, Kept s (next i (allocate i f t w st s))) : Kept s (allocateFree f t w st next s) := by
  unfold allocateFree
  split
  · exact h _
  · exact .refl s

theorem kept_takeFailed (f : HostFrame) (k : FaultKind) (st : Status) (w : Option WindowIdx) (s : State) :
    Kept s (takeFailed f k st w s) := by
  unfold takeFailed
  refine Kept.trans ?_ (kept_recordFault ..)
  split
  · exact kept_allocateFree fun _ => .of_shorter
  · exact .refl s

/-- A hold list takes a request where a hold slot is free and the window may hold (R23, R25). -/
theorem kept_appendHeld {s : State} {w : WindowIdx} (hroom : s.heldTotal < 16)
    (hopen : (s.window w).enable = true ∧ (s.window w).mode ≠ .refuse) (x : Held) :
    Kept s (s.setHoldList w (s.holdList w ++ [x])) := by
  refine { Kept.refl s with lists := fun h y hy => ?_, held := fun _ => ?_ }
  · have hne : w ≠ y := by
      rintro rfl
      rcases hy with hy | hy
      · rw [State.window_setHoldList, hopen.1] at hy; cases hy
      · exact hopen.2 hy
    rw [State.holdList_setHoldList_ne _ _ _ _ hne]
    exact h y hy
  · have := heldTotal_setHoldList s w (s.holdList w ++ [x])
    rw [List.length_append, List.length_singleton] at this
    omega

theorem kept_takeHold {f : HostFrame} {w : WindowIdx} {s : State} (hroom : s.heldTotal < 16)
    (hopen : (s.window w).enable = true ∧ (s.window w).mode ≠ .refuse) : Kept s (takeHold f w s) := by
  unfold takeHold
  split
  · rename_i t _
    refine kept_allocateFree fun i => ?_
    have allocated : Kept s (allocate i f t (some w) .held s) := .of_shorter
    exact allocated.trans (kept_appendHeld (s := allocate i f t (some w) .held s) hroom hopen _)
  · exact kept_appendHeld hroom hopen _

theorem kept_takeQueue {f : HostFrame} {w : WindowIdx} {s : State} (hroom : s.egressFree (s.window w).portIdx = true) :
    Kept s (takeQueue f w s) := by
  unfold takeQueue
  split
  · rename_i t _
    refine kept_allocateFree fun i => ?_
    have allocated : ∀ st, Kept s (allocate i f t (some w) st s) := fun _ => .of_shorter
    exact (allocated _).trans (kept_placeEgress (s := allocate i f t (some w) _ s) (egress_room (s := s) hroom) _)
  · exact kept_placeEgress (egress_room hroom) _

/-- A frame is held only for a window that holds or drains (R15, R47). -/
theorem windowFate_toHold {s : State} {f : HostFrame} {x w : WindowIdx} (h : s.windowFate f x = .toHold w) :
    s.windowState w = .hold ∨ s.windowState w = .drain := by
  unfold State.windowFate at h
  by_cases hcross : (s.window x).crosses f.address f.length = true
  · rw [if_pos hcross] at h; cases h
  rw [if_neg hcross] at h
  by_cases hbarred : (!if f.body.isRead then (s.window x).readPermit else (s.window x).writePermit) = true
  · rw [if_pos hbarred] at h; cases h
  rw [if_neg hbarred] at h
  cases hs : s.windowState x with
  | hold =>
    simp only [hs, Fate.toHold.injEq] at h
    exact .inl (h ▸ hs)
  | drain =>
    simp only [hs] at h
    split at h
    · obtain rfl := Fate.toHold.inj h
      exact .inr hs
    · cases h
  | pass =>
    simp only [hs] at h
    split at h <;> cases h
  | refuse | disabled =>
    simp only [hs] at h
    cases h

/-- A window that a frame is held for is enabled, in HOLD or PASS (R15, R47). -/
theorem open_of_toHold {s : State} {f : HostFrame} {w : WindowIdx} (h : s.fate f = .toHold w) :
    (s.window w).enable = true ∧ (s.window w).mode ≠ .refuse := by
  have matched : ∃ x, s.windowFate f x = .toHold w := by
    rw [fate_eq] at h
    split at h
    · cases h
    · split at h
      · cases h
      · cases hl : s.lookup f.address with
        | none => rw [hl] at h; cases h
        | some x => rw [hl] at h; exact ⟨x, h⟩
  obtain ⟨x, hx⟩ := matched
  have state := windowFate_toHold hx
  cases he : (s.window w).enable with
  | false => rw [windowState_of_disabled he] at state; simp at state
  | true =>
    refine ⟨rfl, fun hm => ?_⟩
    rw [windowState_of_refuse he hm] at state
    simp at state

/-- What a frame that is taken needs, in the state in which it is taken. -/
theorem kept_takeFrame {s : State} {f : HostFrame} {d : Fate} (hc : s.canTake f d = true)
    (hopen : ∀ w, d = .toHold w → (s.window w).enable = true ∧ (s.window w).mode ≠ .refuse) :
    Kept s (takeFrame f d s) := by
  refine (kept_popHead f s).trans ?_
  show Kept (popHead f s) (takeFate f d (popHead f s))
  cases d with
  | reuse => exact kept_recordFault ..
  | failed k st w => exact kept_takeFailed ..
  | management =>
    simp only [takeFate]
    split
    · rename_i t hb
      have turn : s.decoderTurn = true := by simpa [State.canTake, hb, HostBody.isRead] using hc
      rw [State.decoderTurn, Bool.and_eq_true] at turn
      exact kept_manageRead (s := popHead f s) turn.1 ..
    · exact kept_manageWrite ..
  | toHold w =>
    simp only [State.canTake, Bool.and_eq_true, decide_eq_true_eq] at hc
    exact kept_takeHold (s := popHead f s) hc.2 (hopen w rfl)
  | toQueue w =>
    simp only [State.canTake, Bool.and_eq_true] at hc
    exact kept_takeQueue (s := popHead f s) hc.2

theorem claimGeneral_windows (f : HostFrame) (d : Fate) (s : State) : (claimGeneral f d s).windows = s.windows := by
  unfold claimGeneral
  split
  · rw [serveClaims_windows]
  · rfl

theorem kept_claimGeneral (f : HostFrame) (d : Fate) (s : State) : Kept s (claimGeneral f d s) := by
  unfold claimGeneral
  split
  · exact Kept.trans (t := { s with decoder := { s.decoder with claim := .general } }) .of_shorter (kept_serveClaims _)
  · exact .refl s

/-- The decoder's run of frames (R41, R42). -/
theorem kept_decodeLoop (n : Nat) (fresh : Bool) (s : State) : Kept s (decodeLoop n fresh s) := by
  induction n generalizing fresh s with
  | zero => exact kept_serveClaims s
  | succ n ih =>
    simp only [decodeLoop]
    split
    · exact kept_serveClaims s
    · rename_i f _ _
      refine (kept_claimGeneral f (s.fate f) s).trans ?_
      split
      · rename_i hc
        refine (kept_takeFrame hc fun w hw => ?_).trans (ih ..)
        rw [State.window, claimGeneral_windows]
        exact open_of_toHold hw
      · exact Kept.trans (t := waitHead fresh f (s.fate f) _) .of_shorter (kept_serveClaims _)

theorem kept_decodeRun (fresh : Bool) (s : State) : Kept s (decodeRun fresh s) := kept_decodeLoop ..

/-- The end of a happening (R53, R141). -/
theorem kept_settle (s : State) : Kept s (settle s) := (kept_serveClaims s).trans (kept_decodeRun ..)

/-! ### The arrival of a host frame -/

theorem ingressSlot_a {s : State} : s.ingressSlot .a = true ↔ s.ingressCount false < 16 := by
  rw [ingressCount_false]
  simp only [State.ingressSlot, decide_eq_true_eq]
  exact Nat.sub_pos_iff_lt

theorem ingressSlot_b {s : State} : s.ingressSlot .b = true ↔ s.ingressCount true < 8 := by
  rw [ingressCount_true]
  simp only [State.ingressSlot, decide_eq_true_eq]
  exact Nat.sub_pos_iff_lt

theorem isRead_requestFrame (r : TrunkRequest) :
    (requestFrame r).body.isRead = (match requestCls r with | .a => false | .b => true) := by
  cases r <;> rfl

/-- A frame that finds a slot of its class enters the trunk ingress queue (R96, R126). -/
theorem kept_enqueueTrunk {s : State} {r : TrunkRequest} (h : s.ingressSlot (requestCls r) = true) :
    Kept s (enqueueTrunk (requestFrame r) s) := by
  have joined : Kept s { s with ingress := s.ingress ++ [requestFrame r] } := by
    refine { Kept.refl s with writes := fun hw => ?_, reads := fun hr => ?_ }
    · rw [ingressCount_append, isRead_requestFrame]
      cases hc : requestCls r with
      | a => exact ingressSlot_a.mp (hc ▸ h)
      | b => exact hw
    · rw [ingressCount_append, isRead_requestFrame]
      cases hc : requestCls r with
      | a => exact hr
      | b => exact ingressSlot_b.mp (hc ▸ h)
  unfold enqueueTrunk
  simp only
  split
  · exact joined.trans (kept_decodeRun ..)
  · exact joined

theorem kept_receiveRequest (r : TrunkRequest) (s : State) : Kept s (receiveRequest r s) := by
  refine kept_receive .trunk _ (kept_discardFrame .trunk) (fun u => ?_) .refl .refl s
  unfold acceptRequest
  split
  · split
    · rename_i hslot
      exact kept_enqueueTrunk hslot
    · exact kept_creditOverrun ..
  · exact kept_frameInvalid ..

/-- A management write row is the arrival of its WRITE frame (log 14). -/
theorem kept_hostWrite (off : Nat) (data : List Byte) (s : State) : Kept s (hostWrite off data s) := kept_receiveRequest ..

end Sys2Proof.Machine
end

section
/-! Every command keeps the bounds (O52). -/

namespace Sys2Proof.Machine

-- The theorems are checked one after the other, which bounds the memory that the check takes.
set_option Elab.async false

/-- A command that acts with POR_N high alone (R184). -/
theorem kept_whenPowered {f : State → State} {s : State} (h : Kept s (f s)) : Kept s (whenPowered f s) := by
  unfold whenPowered
  split
  · exact h
  · exact .refl s

/-! ### Deadlines -/

theorem kept_resendReached (l : Link) (s : State) : Kept s (resendReached l s) := by
  unfold resendReached
  simp only
  split
  · split
    · exact kept_dueSync l s
    · refine Kept.trans ?_ (kept_settle _)
      cases l with
      | trunk => exact kept_trunkLoss ..
      | branch p => exact kept_portFail ..
  · exact .refl s

theorem kept_retryReached (l : Link) (s : State) : Kept s (retryReached l s) := by
  unfold retryReached
  split
  · cases l with
    | trunk => exact kept_startTraining ..
    | branch p => exact (kept_startTraining ..).trans ((kept_grantWindows ..).trans (kept_settle _))
  · exact .refl s

theorem kept_expire (i : EntryIdx) (v : Live) (s : State) : Kept s (expire i v s) :=
  (kept_toReplying ..).trans (kept_recordFault ..)

theorem kept_removeHeld (w : WindowIdx) (i : EntryIdx) (s : State) : Kept s (removeHeld w i s) :=
  kept_setHoldList (List.length_filter_le ..)

theorem kept_removeQueued (p : PortIdx) (i : EntryIdx) (s : State) : Kept s (removeQueued p i s) :=
  kept_setPort ⟨id, fun h => Nat.le_trans (List.length_filter_le ..) h, id⟩

theorem kept_ticketReached (i : EntryIdx) (s : State) : Kept s (ticketReached i s) := by
  unfold ticketReached
  split
  · exact .refl s
  · split
    · split
      · split
        · exact (kept_removeHeld ..).trans ((kept_expire ..).trans ((kept_examineHeads ..).trans
            ((kept_grantWindows ..).trans (kept_settle _))))
        · exact (kept_expire ..).trans (kept_settle _)
      · exact (kept_removeQueued ..).trans ((kept_expire ..).trans ((kept_grantWindows ..).trans
          ((kept_refreshIdle ..).trans (kept_settle _))))
      · exact (kept_expire ..).trans ((kept_refreshIdle ..).trans (kept_settle _))
      · exact .refl s
    · exact .refl s

theorem kept_headWaitReached (s : State) : Kept s (headWaitReached s) := by
  unfold headWaitReached
  split
  · exact .refl s
  · split
    · exact (kept_popHead ..).trans ((kept_recordFault ..).trans (kept_decodeRun ..))
    · exact .refl s

theorem kept_answerReached (p : PortIdx) (s : State) : Kept s (answerReached p s) := by
  unfold answerReached
  simp only
  split
  · refine Kept.trans ?_ ((kept_recordFault ..).trans (kept_refreshIdle ..))
    exact kept_setPort ⟨id, id, id⟩
  · exact .refl s

theorem kept_wakeReached (p : PortIdx) (s : State) : Kept s (wakeReached p s) := by
  unfold wakeReached
  simp only
  split
  · exact (kept_portFail ..).trans (kept_settle _)
  · exact .refl s

theorem kept_idleReached (p : PortIdx) (s : State) : Kept s (idleReached p s) := by
  unfold idleReached
  simp only
  split
  · exact kept_enterDozeWait ..
  · exact .refl s

/-! ### Link frames -/

theorem kept_setUp (l : Link) (s : State) : Kept s (setUp l s) := by
  cases l with
  | trunk => exact .of_shorter
  | branch p => exact kept_setPort ⟨id, id, id⟩

theorem kept_afterUp (l : Link) (s : State) : Kept s (afterUp l s) := by
  cases l with
  | trunk => exact kept_settle s
  | branch p => exact kept_refreshIdle p s

theorem kept_syncToUp (l : Link) (a b : Byte) (s : State) : Kept s (syncToUp l a b s) :=
  (kept_setUp l s).trans ((kept_modLink ..).trans (kept_afterUp ..))

theorem kept_syncWhenLive (l : Link) (a b : Byte) (s : State) : Kept s (syncWhenLive l a b s) := by
  unfold syncWhenLive
  split
  · exact kept_modLink ..
  · split
    · exact kept_modLink ..
    · exact kept_syncToUp ..

theorem kept_receiveSync (l : Link) (size : Nat) (a b : Byte) (s : State) : Kept s (receiveSync l size a b s) := by
  unfold receiveSync
  refine kept_receive l size (fun u => ?_) (fun u => ?_) (fun u => ?_) (fun u => ?_) s <;> split
  · exact kept_syncToUp ..
  · exact kept_discardFrame ..
  · exact kept_syncWhenLive ..
  · exact kept_frameInvalid ..
  · exact kept_syncToUp ..
  · exact kept_frameInvalid ..
  · exact kept_syncToUp ..
  · exact kept_discardFrame ..

theorem kept_receiveSyncAck (l : Link) (size : Nat) (a b : Byte) (s : State) :
    Kept s (receiveSyncAck l size a b s) := by
  unfold receiveSyncAck
  refine kept_receive l size (fun u => ?_) (fun u => ?_) (kept_frameInvalid l 0x90 none) (kept_discardFrame l) s <;> split
  · exact (kept_setUp l u).trans ((kept_modLink ..).trans (kept_afterUp ..))
  · exact kept_discardFrame ..
  · exact .refl u
  · exact kept_frameInvalid ..

theorem kept_receiveCredit (l : Link) (size : Nat) (a b : Byte) (s : State) :
    Kept s (receiveCredit l size a b s) := by
  unfold receiveCredit
  refine kept_receive l size (kept_discardFrame l) (fun u => ?_) (kept_frameInvalid l 0xA0 none) (kept_discardFrame l) s
  split
  · exact kept_modLink ..
  · exact kept_frameInvalid ..

theorem kept_trunkReset (s : State) : Kept s (trunkReset s) := by
  have based : Kept (clearRouter s) { clearRouter s with apertureBase := Config.strapDefault s.strapId } :=
    { Kept.refl (clearRouter s) with base := fun _ => strapDefault_aligned _ }
  exact (kept_clearRouter s).trans (based.trans ((kept_dropIngress _).trans (kept_startTraining ..)))

/-! ### Module frames -/

/-- A module WRITE enters a buffer with a free slot (R96, R123). -/
theorem kept_bufferWrite {p : PortIdx} {s : State} (h : s.freeA (.branch p) ≠ 0) (w : UpWrite) :
    Kept s (bufferWrite p w s) := by
  have room : (s.port p).buffer.length < 2 := by
    simp only [State.freeA, Config.bufferSlots] at h
    omega
  refine Kept.trans ?_ ((kept_refreshIdle ..).trans (kept_settle _))
  exact kept_setPort ⟨id, id, fun _ => by rw [List.length_append]; exact room⟩

theorem kept_refuseUpWrite (k : FaultKind) (p : PortIdx) (n : Nat) (a : ModuleAddr) (s : State) :
    Kept s (refuseUpWrite k p n a s) := (kept_consume ..).trans (kept_recordFault ..)

theorem kept_acceptUpWrite (p : PortIdx) (n : Nat) (a : ModuleAddr) (data : List Byte) (s : State) :
    Kept s (acceptUpWrite p n a data s) := by
  unfold acceptUpWrite
  simp only
  split
  · exact kept_creditOverrun ..
  · rename_i hroom
    split
    · exact kept_refuseUpWrite ..
    · split
      · exact kept_bufferWrite hroom _
      · exact kept_refuseUpWrite ..

theorem kept_matchedResult (i : EntryIdx) (v : Live) (status : BitVec 3) (count : Byte) (data : List Byte) (s : State) :
    Kept s (matchedResult i v status count data s) := by
  unfold matchedResult
  split
  · split
    · exact kept_toReplying ..
    · exact (kept_toReplying ..).trans (kept_recordFault ..)
  · exact kept_toReplying ..

theorem kept_acceptResult (p : PortIdx) (size : Nat) (status : BitVec 3) (ticket count : Byte) (data : List Byte)
    (s : State) : Kept s (acceptResult p size status ticket count data s) := by
  unfold acceptResult
  split
  · refine (kept_consume (.branch p) .b s).trans ?_
    simp only
    split
    · exact (kept_matchedResult ..).trans (kept_refreshIdle ..)
    · refine Kept.trans ?_ (kept_recordFault ..)
      exact kept_setPort ⟨id, id, id⟩
  · exact kept_frameInvalid ..

theorem kept_acceptDozeAck (p : PortIdx) (s : State) : Kept s (acceptDozeAck p s) := by
  unfold acceptDozeAck
  simp only
  split
  · exact kept_setPort ⟨id, id, id⟩
  · split
    · exact kept_setPort ⟨id, id, id⟩
    · exact kept_enterWaking ..

/-! ### Signals and the tick -/

theorem kept_loseSignal (l : Link) (s : State) : Kept s (loseSignal l s) := by
  have gone : Kept s (s.modLink l fun e => { e with signal := false }) := kept_modLink ..
  unfold loseSignal
  split
  · cases l with
    | trunk =>
      simp only
      split
      · exact gone
      · exact gone.trans ((kept_trunkLoss ..).trans (kept_settle _))
      · exact gone.trans ((kept_trunkLoss ..).trans (kept_settle _))
    | branch p =>
      simp only
      split
      · exact gone.trans ((kept_portFail ..).trans (kept_settle _))
      · exact gone
  · exact .refl s

theorem kept_tick (s : State) : Kept s (tick s) := by
  have now : Kept s { s with time := s.time + 1 } := .of_shorter
  unfold tick
  simp only
  split
  · exact now.trans ((kept_examineAll _).trans ((kept_grantAll _).trans (kept_settle _)))
  · exact now

theorem kept_powerUp (strap : BitVec 2) (s : State) : Kept s (powerUp strap s) :=
  (kept_blank ..).trans (kept_startTraining ..)

/-! ### Transmissions -/

theorem kept_markSent (p : PortIdx) (b : ReqBody) (s : State) : Kept s (markSent p b s) := by
  unfold markSent
  split
  · exact .refl s
  · split
    · split
      · exact .of_shorter
      · exact .refl s
    · exact .refl s

theorem kept_sendEgress (p : PortIdx) (q : Queued) (s : State) : Kept s (sendEgress p q s) := by
  refine Kept.trans (t := s.modPort p fun b =>
    { b with queue := b.queue.tail, link := (b.link.transmit (s.requestTx q)).countSent q.body.cls }) ?_
    ((kept_markSent ..).trans ((kept_grantWindows ..).trans ((kept_refreshIdle ..).trans (kept_settle _))))
  exact kept_setPort ⟨id, fun h => Nat.le_trans (by simp) h, id⟩

theorem kept_sendReply (s : State) : Kept s (sendReply s) := by
  unfold sendReply
  split
  · exact .refl s
  · refine Kept.trans ?_ (kept_settle _)
    exact .of_shorter

theorem kept_sendGeneral (s : State) : Kept s (sendGeneral s) := by
  unfold sendGeneral
  split
  · exact .refl s
  · rename_i f rest hq
    refine Kept.trans ?_ (kept_settle _)
    exact .of_shorter (general := fun h => by rw [hq, List.length_cons] at h; exact Nat.le_of_succ_le h)

/-- A transmission that is taken where it is ready, and else leaves the state. -/
theorem kept_ifReady {s : State} {ready : Prop} [Decidable ready] {sent : State} (h : Kept s sent) :
    Kept s (if ready then sent else s) := by
  split
  · exact h
  · exact .refl s

/-! ### Every command -/

/-- Every command keeps the bounds of the state that it runs on. -/
theorem kept_exec {c : Instr} {s t : State} (h : exec c s = .next t) : Kept s t := by
  suffices all : ∃ u, exec c s = .next u ∧ Kept s u by
    obtain ⟨u, hu, kept⟩ := all
    rw [h] at hu
    obtain rfl := Host.Outcome.next.inj hu
    exact kept
  cases c with
  | porAssert => exact ⟨_, rfl, kept_blank ..⟩
  | porRelease id1 id0 => exact ⟨_, rfl, kept_powerUp ..⟩
  | signalLost l => exact ⟨_, rfl, kept_whenPowered (kept_loseSignal l s)⟩
  | crcError l => exact ⟨_, rfl, kept_crcFail l s⟩
  | trunkIngressFrame f => exact ⟨_, rfl, kept_receiveRequest f s⟩
  | trunkReset size =>
    refine ⟨_, rfl, kept_receive .trunk size (kept_discardFrame .trunk) (fun u => ?_) .refl .refl s⟩
    split
    · exact kept_trunkReset u
    · exact kept_frameInvalid ..
  | syncReceived l size a b => exact ⟨_, rfl, kept_receiveSync ..⟩
  | syncAckReceived l size a b => exact ⟨_, rfl, kept_receiveSyncAck ..⟩
  | creditReceived l size a b => exact ⟨_, rfl, kept_receiveCredit ..⟩
  | moduleWriteArrival p size n a data =>
    refine ⟨_, rfl, kept_receive (.branch p) size (kept_discardFrame _) (fun u => ?_) (kept_frameInvalid _ _ _)
      (kept_discardFrame _) s⟩
    split
    · exact kept_acceptUpWrite ..
    · exact kept_frameInvalid ..
  | branchResultArrival p size status ticket count data =>
    exact ⟨_, rfl, kept_receive (.branch p) size (kept_discardFrame _) (kept_acceptResult p size status ticket count data)
      (kept_frameInvalid _ _ _) (kept_discardFrame _) s⟩
  | eventFrame p size code =>
    refine ⟨_, rfl, kept_receive (.branch p) size (kept_discardFrame _) (fun u => ?_) (kept_frameInvalid _ _ _)
      (kept_discardFrame _) s⟩
    split
    · exact kept_arrival ..
    · exact kept_frameInvalid ..
  | dozeAck p size =>
    refine ⟨_, rfl, kept_receive (.branch p) size (kept_discardFrame _) (fun u => ?_) (kept_frameInvalid _ _ _)
      (kept_discardFrame _) s⟩
    split
    · exact kept_acceptDozeAck ..
    · exact kept_frameInvalid ..
  | moduleWake p size =>
    refine ⟨_, rfl, kept_receive (.branch p) size (kept_discardFrame _) (fun u => ?_) (fun u => ?_)
      (kept_discardFrame _) s⟩ <;> split
    · exact .refl u
    · exact kept_frameInvalid ..
    · exact kept_enterWaking ..
    · exact kept_frameInvalid ..
  | resendDeadline l => exact ⟨_, rfl, kept_whenPowered (kept_resendReached l s)⟩
  | retryDeadline l => exact ⟨_, rfl, kept_whenPowered (kept_retryReached l s)⟩
  | ticketDeadline i => exact ⟨_, rfl, kept_whenPowered (kept_ticketReached i s)⟩
  | headWaitDeadline => exact ⟨_, rfl, kept_whenPowered (kept_headWaitReached s)⟩
  | answerDeadline p => exact ⟨_, rfl, kept_whenPowered (kept_answerReached p s)⟩
  | wakeDeadline p => exact ⟨_, rfl, kept_whenPowered (kept_wakeReached p s)⟩
  | idleDeadline p => exact ⟨_, rfl, kept_whenPowered (kept_idleReached p s)⟩
  | syncTransmit l => exact ⟨_, rfl, kept_whenPowered (kept_ifReady (kept_modLink ..))⟩
  | syncAckTransmit l => exact ⟨_, rfl, kept_whenPowered (kept_ifReady (kept_modLink ..))⟩
  | creditTransmit l => exact ⟨_, rfl, kept_whenPowered (kept_ifReady (kept_modLink ..))⟩
  | dozeReqTransmit p => exact ⟨_, rfl, kept_whenPowered (kept_ifReady (kept_setPort ⟨id, id, id⟩))⟩
  | wakeTransmit p => exact ⟨_, rfl, kept_whenPowered (kept_ifReady (kept_setPort ⟨id, id, id⟩))⟩
  | branchEgressTransmit p =>
    refine ⟨_, rfl, kept_whenPowered ?_⟩
    cases s.egressReady p with
    | none => exact .refl s
    | some q => exact kept_sendEgress p q s
  | replyLaneTransmit => exact ⟨_, rfl, kept_whenPowered (kept_ifReady (kept_sendReply s))⟩
  | generalQueueTransmit => exact ⟨_, rfl, kept_whenPowered (kept_ifReady (kept_sendGeneral s))⟩
  | signalPresent l => exact ⟨_, rfl, kept_whenPowered (kept_modLink ..)⟩
  | routerTimeTick => exact ⟨_, rfl, kept_whenPowered (kept_tick s)⟩
  | transmitterFree l => exact ⟨_, rfl, kept_whenPowered (kept_modLink ..)⟩
  | disallowedKindFrame l size kind =>
    exact ⟨_, rfl, kept_receive l size (kept_discardFrame l) (kept_frameInvalid l kind none)
      (kept_frameInvalid l kind none) (kept_discardFrame l) s⟩
  | windowRecordWrite w bytes | apertureBaseWrite v | ticketLifetimeWrite v | headWaitLimitWrite v | routerReset
  | portEnable p e u v | autoDozeIntervalWrite p e u v | dozeCommand p | wakeCommand p | portResetCommand p
  | eventLineEnableWrite i e v | ack i | clear i | pop | droppedCountClear v | counterClear l k n v
  | managementWrite off data => exact ⟨_, rfl, kept_hostWrite ..⟩

/-- Settles O52: a step runs one command, or none, and each command keeps every bound. -/
theorem stepsKeepRecordsAndBounds : Obligations.StepsKeepRecordsAndBounds := by
  unfold Obligations.StepsKeepRecordsAndBounds
  intro s t h
  have kept : Kept s t := by
    unfold step at h
    split at h
    · obtain rfl := Host.Outcome.next.inj h
      exact .refl s
    · rename_i c rest _
      have taken : Kept s (s.withPending rest) := .of_shorter
      exact taken.trans (kept_exec h)
  exact ⟨kept.windows, kept.lists, kept.controlValid, kept.log, kept.queuesBounded⟩

end Sys2Proof.Machine
end

section
/-! Where each READ stands. `Place` names the four kinds of place that an entry's state can give it (R66 to R68, R75), so that
`State.placed` says one thing of every place: an entry is counted there once where its state gives it that place, and else not
at all. -/

namespace Sys2Proof.Machine

/-! ### Places -/

/-- The places at which READs stand: the hold lists, the branch egress queues, the sent orders and the reply lane. -/
inductive Place where
  | held (w : WindowIdx)
  | queued (p : PortIdx)
  | sent (p : PortIdx)
  | lane
  deriving DecidableEq

/-- The place that the stage of a live entry gives it (R66 to R68, R75). -/
def Live.place (v : Live) : Option Place :=
  match v.stage with
  | .held => v.window.map .held
  | .queued r => some (.queued r.port)
  | .sent r => some (.sent r.port)
  | .replying .. => some .lane

/-- The place that an entry's state gives it; a FREE entry has none. -/
def Entry.place (e : Entry) : Option Place := e.live.bind Live.place

/-- The entries that stand at a place, in order. -/
def State.readsAt (s : State) : Place → List EntryIdx
  | .held w => heldReads (s.holdList w)
  | .queued p => queuedReads (s.port p).queue
  | .sent p => s.sentOf p
  | .lane => s.replyLane

/-- Entry `i` stands once at the place that its state gives it, and nowhere else. -/
structure EntryPlaced (s : State) (i : EntryIdx) : Prop where
  named : (s.entry i).heldNamed = true
  count : ∀ x, (s.readsAt x).count i = once (decide ((s.entry i).place = some x))

section
variable {e : Entry}

theorem place_of_live {v : Live} (h : e.live = some v) : e.place = v.place := by rw [Entry.place, h]; rfl

theorem heldFor_eq (w : WindowIdx) : e.heldFor w = decide (e.place = some (.held w)) := by
  unfold Entry.heldFor Entry.place Live.place
  cases e.live with
  | none => rfl
  | some v =>
    cases hs : v.stage with
    | held => cases hw : v.window <;> simp [hs, hw]; rfl
    | queued r | sent r | replying r st d => simp [hs]

theorem queuedFor_eq (p : PortIdx) : e.queuedFor p = decide (e.place = some (.queued p)) := by
  unfold Entry.queuedFor Entry.place Live.place
  cases e.live with
  | none => rfl
  | some v =>
    cases hs : v.stage with
    | held => cases hw : v.window <;> simp [hs, hw]
    | queued r => simp [hs]; rfl
    | sent r | replying r st d => simp [hs]

theorem sentFor_eq (p : PortIdx) : e.sentFor p = decide (e.place = some (.sent p)) := by
  unfold Entry.sentFor Entry.place Live.place
  cases e.live with
  | none => rfl
  | some v =>
    cases hs : v.stage with
    | held => cases hw : v.window <;> simp [hs, hw]
    | sent r => simp [hs]; rfl
    | queued r | replying r st d => simp [hs]

theorem replies_eq : e.replies = decide (e.place = some .lane) := by
  unfold Entry.replies Entry.place Live.place Stage.isReplying
  cases e.live with
  | none => rfl
  | some v => cases hs : v.stage <;> cases hw : v.window <;> simp [hs, hw]

/-- An entry works for a port while it is in QUEUED or SENT there (R113). -/
theorem worksFor_iff {p : PortIdx} :
    e.worksFor p = true ↔ e.place = some (.queued p) ∨ e.place = some (.sent p) := by
  unfold Entry.worksFor Entry.place Live.place
  cases e.live with
  | none => simp
  | some v => cases hs : v.stage <;> cases hw : v.window <;> simp [hs, hw]

end

/-- What `State.placed` says, place by place. -/
theorem placed_iff {s : State} : s.placed ↔ ∀ i, EntryPlaced s i := by
  unfold State.placed
  simp only [heldFor_eq, queuedFor_eq, sentFor_eq, replies_eq]
  constructor
  · intro h i
    obtain ⟨named, held, queued, sent, lane⟩ := h i
    refine ⟨named, fun x => ?_⟩
    cases x with
    | held w => exact held w
    | queued p => exact queued p
    | sent p => exact sent p
    | lane => exact lane
  · exact fun h i => ⟨(h i).named, fun w => (h i).count (.held w), fun p => (h i).count (.queued p),
      fun p => (h i).count (.sent p), (h i).count .lane⟩

section
variable {s : State} {i : EntryIdx}

theorem once_decide_eq_zero {p : Prop} [Decidable p] : once (decide p) = 0 ↔ ¬p := by
  by_cases h : p <;> simp [once, h]

/-- An entry stands at a place exactly where its state gives it that place. -/
theorem EntryPlaced.mem_iff (h : EntryPlaced s i) {x : Place} :
    i ∈ s.readsAt x ↔ (s.entry i).place = some x := by
  rw [← List.count_pos_iff, h.count, Nat.pos_iff_ne_zero, Ne, once_decide_eq_zero, not_not]

theorem State.placed.mem_iff (h : s.placed) {x : Place} : i ∈ s.readsAt x ↔ (s.entry i).place = some x :=
  (placed_iff.mp h i).mem_iff

theorem State.placed.nodup (h : s.placed) (x : Place) : (s.readsAt x).Nodup :=
  List.nodup_iff_count_le_one.mpr fun i => by rw [(placed_iff.mp h i).count]; exact once_le _

/-- A FREE entry stands nowhere. -/
theorem State.placed.count_free (h : s.placed) (hi : (s.entry i).live = none) (x : Place) : (s.readsAt x).count i = 0 := by
  rw [(placed_iff.mp h i).count, once_decide_eq_zero]
  simp [Entry.place, hi]

end

/-! ### Reads of lists and queues -/

@[simp] theorem heldReads_append (l k : List Held) : heldReads (l ++ k) = heldReads l ++ heldReads k :=
  List.filterMap_append

@[simp] theorem queuedReads_append (l k : List Queued) : queuedReads (l ++ k) = queuedReads l ++ queuedReads k :=
  List.filterMap_append

theorem heldReads_cons (h : Held) (l : List Held) :
    heldReads (h :: l) = (match h.body with | .read i => [i] | .write _ => []) ++ heldReads l := by
  cases hb : h.body <;> simp [heldReads, hb]

theorem queuedReads_cons (q : Queued) (l : List Queued) :
    queuedReads (q :: l) = (match q.body with | .read i => [i] | .write _ => []) ++ queuedReads l := by
  cases hb : q.body <;> simp [queuedReads, hb]

@[simp] theorem heldReads_nil : heldReads [] = [] := rfl

@[simp] theorem queuedReads_nil : queuedReads [] = [] := rfl

/-- Taking one READ out of a list leaves the others. -/
theorem heldReads_filter (l : List Held) (i : EntryIdx) :
    heldReads (l.filter fun h => h.body ≠ .read i) = (heldReads l).filter (· ≠ i) := by
  induction l with
  | nil => rfl
  | cons h l ih =>
    cases hb : h.body with
    | write d => simp_all [heldReads_cons]
    | read j => by_cases hj : j = i <;> simp_all [heldReads_cons]

theorem queuedReads_filter (l : List Queued) (i : EntryIdx) :
    queuedReads (l.filter fun q => q.body ≠ .read i) = (queuedReads l).filter (· ≠ i) := by
  induction l with
  | nil => rfl
  | cons q l ih =>
    cases hb : q.body with
    | write d => simp_all [queuedReads_cons]
    | read j => by_cases hj : j = i <;> simp_all [queuedReads_cons]

/-- Without the READs of a list no entry stands in it. -/
theorem heldReads_writes (l : List Held) : heldReads (l.filter fun h => !h.body.isRead) = [] := by
  induction l with
  | nil => rfl
  | cons h l ih => cases hb : h.body <;> simp_all [ReqBody.isRead, heldReads_cons]

theorem queuedReads_writes (l : List Queued) : queuedReads (l.filter fun q => !q.body.isRead) = [] := by
  induction l with
  | nil => rfl
  | cons q l ih => cases hb : q.body <;> simp_all [ReqBody.isRead, queuedReads_cons]

theorem count_filter_ne (l : List EntryIdx) (i j : EntryIdx) :
    (l.filter (· ≠ i)).count j = if j = i then 0 else l.count j := by
  by_cases h : j = i
  · subst h
    rw [if_pos rfl, List.count_eq_zero]
    simp
  · rw [if_neg h, List.count_filter (by simpa using h)]

/-! ### The places after one change -/

section
variable (s : State)

theorem readsAt_setHoldList (w : WindowIdx) (l : List Held) (x : Place) :
    (s.setHoldList w l).readsAt x = if x = .held w then heldReads l else s.readsAt x := by
  cases x with
  | held y =>
    by_cases h : w = y
    · subst h; simp [State.readsAt]
    · simp [State.readsAt, State.holdList_setHoldList_ne s w l y h, Ne.symm h]
  | queued p | sent p | lane => rfl

theorem readsAt_setPort (p : PortIdx) (b : PortBlock) (x : Place) :
    (s.setPort p b).readsAt x = if x = .queued p then queuedReads b.queue else s.readsAt x := by
  cases x with
  | queued k =>
    by_cases h : p = k
    · subst h; simp [State.readsAt]
    · simp [State.readsAt, State.port_setPort_ne s p b k h, Ne.symm h]
  | held w | sent k | lane => rfl

theorem readsAt_setSentOf (p : PortIdx) (o : List EntryIdx) (x : Place) :
    (s.setSentOf p o).readsAt x = if x = .sent p then o else s.readsAt x := by
  cases x with
  | sent k =>
    by_cases h : p = k
    · subst h; simp [State.readsAt]
    · simp [State.readsAt, State.sentOf_setSentOf_ne s p o k h, Ne.symm h]
  | held w | queued k | lane => rfl

@[simp] theorem readsAt_setEntry (i : EntryIdx) (e : Entry) (x : Place) : (s.setEntry i e).readsAt x = s.readsAt x := by
  cases x <;> rfl

end

/-! ### One entry moves -/

/-- Nothing but entry `i` moves: every other entry is as it was and stands where it stood. -/
structure MovesOnly (i : EntryIdx) (s t : State) : Prop where
  entry : ∀ j, j ≠ i → t.entry j = s.entry j
  count : ∀ j, j ≠ i → ∀ x, (t.readsAt x).count j = (s.readsAt x).count j

theorem MovesOnly.trans {i : EntryIdx} {s t u : State} (h : MovesOnly i s t) (k : MovesOnly i t u) : MovesOnly i s u :=
  ⟨fun j hj => (k.entry j hj).trans (h.entry j hj), fun j hj x => (k.count j hj x).trans (h.count j hj x)⟩

theorem MovesOnly.entryPlaced {i j : EntryIdx} {s t : State} (h : MovesOnly i s t) (hj : j ≠ i) (hs : EntryPlaced s j) :
    EntryPlaced t j :=
  ⟨by rw [h.entry j hj]; exact hs.named, fun x => by rw [h.count j hj x, h.entry j hj]; exact hs.count x⟩

/-- The others stay in their places, so the entry that moves decides. -/
theorem MovesOnly.placed {i : EntryIdx} {s t : State} (h : MovesOnly i s t) (hs : s.placed) (hi : EntryPlaced t i) :
    t.placed := by
  refine placed_iff.mpr fun j => ?_
  by_cases hj : j = i
  · exact hj ▸ hi
  · exact h.entryPlaced hj (placed_iff.mp hs j)

theorem movesOnly_setEntry (i : EntryIdx) (e : Entry) (s : State) : MovesOnly i s (s.setEntry i e) :=
  ⟨fun j hj => State.entry_setEntry_ne s i e j (Ne.symm hj), fun _ _ x => by rw [readsAt_setEntry]⟩

/-- An entry that can be answered: live, not in REPLYING, and standing nowhere but perhaps in a sent order. -/
structure Answerable (s : State) (i : EntryIdx) : Prop where
  live : ∃ v, (s.entry i).live = some v ∧ v.stage.isReplying = false
  nowhere : ∀ x, (∀ p, x ≠ .sent p) → (s.readsAt x).count i = 0

/-- What answering an entry does to the places (R61, R68, R75). -/
theorem readsAt_answered (s : State) (i : EntryIdx) (v : Live) (st : Status) (data : List Byte) (x : Place) :
    (s.answered i v st data).readsAt x = match x with
      | .sent p => (s.sentOf p).filter (· ≠ i)
      | .lane => s.replyLane ++ [i]
      | .held w => heldReads (s.holdList w)
      | .queued p => queuedReads (s.port p).queue := by
  cases x with
  | sent p => simp [State.readsAt, State.answered, State.sentOf]
  | held w | queued p | lane => rfl

theorem movesOnly_answered (s : State) (i : EntryIdx) (v : Live) (st : Status) (data : List Byte) :
    MovesOnly i s (s.answered i v st data) := by
  refine ⟨fun j hj => State.entry_setEntry_ne s i _ j (Ne.symm hj), fun j hj x => ?_⟩
  rw [readsAt_answered]
  cases x with
  | sent p => exact (count_filter_ne ..).trans (if_neg hj)
  | lane => simp [State.readsAt, Ne.symm hj]
  | held w | queued p => rfl

theorem entryPlaced_answered {s : State} {i : EntryIdx} (h : Answerable s i) (v : Live) (st : Status) (data : List Byte) :
    EntryPlaced (s.answered i v st data) i := by
  have entry : (s.answered i v st data).entry i =
      ⟨(s.entry i).epoch, some { v with stage := .replying v.stage.route st data }⟩ := State.entry_setEntry_self s i _
  refine ⟨by rw [entry]; rfl, fun x => ?_⟩
  rw [readsAt_answered, entry]
  cases x with
  | held w => exact h.nowhere (.held w) (by simp)
  | queued p => exact h.nowhere (.queued p) (by simp)
  | sent p => exact (count_filter_ne ..).trans (if_pos rfl)
  | lane =>
    have before : s.replyLane.count i = 0 := h.nowhere .lane (by simp)
    rw [List.count_append, before]
    simp [Entry.place, Live.place, once]

/-- An entry that can be answered stands in the reply lane afterwards, and no other entry moves (R75). -/
theorem placed_toReplying {s : State} {i : EntryIdx} (h : Answerable s i) (hs : ∀ j, j ≠ i → EntryPlaced s j) (st : Status)
    (data : List Byte) : (toReplying i st data s).placed := by
  obtain ⟨v, hv, hr⟩ := h.live
  rw [toReplying_live hv hr]
  refine placed_iff.mpr fun j => ?_
  by_cases hj : j = i
  · exact hj ▸ entryPlaced_answered h v st data
  · exact (movesOnly_answered s i v st data).entryPlaced hj (hs j hj)

end Sys2Proof.Machine
end

section
/-! What moves no READ and opens or closes no port (`Unmoved`), what keeps every READ in its place (`Housed`, O54), and what
keeps every window drained as far as it can be (`Drains`, O57). -/

namespace Sys2Proof.Machine

-- The theorems are checked one after the other, which bounds the memory that the check takes.
set_option Elab.async false

/-! ### Operations that move nothing -/

/-- A port keeps its queue and accepts requests or not as before; closed and empty, it takes nothing into its buffer. -/
structure PortSteady (b c : PortBlock) : Prop where
  accepts : c.state.accepts = b.state.accepts
  queue : c.queue = b.queue
  buffer : b.state.accepts = false → b.buffer = [] → c.buffer = []

theorem PortSteady.refl (b : PortBlock) : PortSteady b b := ⟨rfl, rfl, fun _ h => h⟩

theorem PortSteady.trans {b c d : PortBlock} (h : PortSteady b c) (k : PortSteady c d) : PortSteady b d :=
  ⟨k.accepts.trans h.accepts, k.queue.trans h.queue, fun ha hb => k.buffer (h.accepts.trans ha) (h.buffer ha hb)⟩

/-- What grants of the general queue leave of a port. -/
theorem PortGrant.steady {b c : PortBlock} (h : PortGrant b c) : PortSteady b c :=
  ⟨h.accepts, h.queue, fun _ hb => by rw [h.still hb]; exact hb⟩

/-- Records, lists, entries and orders are as they were, and the ports are steady. -/
structure Unmoved (s t : State) : Prop where
  windows : t.windows = s.windows := by rfl
  holdLists : t.holdLists = s.holdLists := by rfl
  entries : t.entries = s.entries := by rfl
  sentOrder : t.sentOrder = s.sentOrder := by rfl
  replyLane : t.replyLane = s.replyLane := by rfl
  ports : ∀ p, PortSteady (s.port p) (t.port p) := by exact fun _ => .refl _

theorem Unmoved.refl (s : State) : Unmoved s s := {}

theorem Unmoved.trans {s t u : State} (h : Unmoved s t) (k : Unmoved t u) : Unmoved s u where
  windows := k.windows.trans h.windows
  holdLists := k.holdLists.trans h.holdLists
  entries := k.entries.trans h.entries
  sentOrder := k.sentOrder.trans h.sentOrder
  replyLane := k.replyLane.trans h.replyLane
  ports p := (h.ports p).trans (k.ports p)

theorem unmoved_setPort {s : State} {p : PortIdx} {b : PortBlock} (h : PortSteady (s.port p) b) :
    Unmoved s (s.setPort p b) where
  ports k := by
    rw [State.port_setPort]
    split
    · rename_i hk; exact hk ▸ h
    · exact .refl _

theorem unmoved_modLink (l : Link) (f : LinkEnd → LinkEnd) (s : State) : Unmoved s (s.modLink l f) := by
  cases l with
  | trunk => exact {}
  | branch p => exact unmoved_setPort ⟨rfl, rfl, fun _ h => h⟩

theorem unmoved_setLine (i : LineIdx) (l : EventLine) (s : State) : Unmoved s (s.setLine i l) := {}

theorem unmoved_consume (l : Link) (c : CreditClass) (s : State) : Unmoved s (s.consume l c) := unmoved_modLink ..

/-- A port's state moves between two that accept. -/
theorem portSteady_of_accepts {b c : PortBlock} (hb : b.state.accepts = true) (hc : c.state.accepts = true)
    (hq : c.queue = b.queue) : PortSteady b c :=
  ⟨hc.trans hb.symm, hq, fun h => by rw [hb] at h; cases h⟩

theorem accepts_of_up {st : PortState} (h : st = .up) : st.accepts = true := by rw [h]; rfl

theorem unmoved_refreshIdle (p : PortIdx) (s : State) : Unmoved s (refreshIdle p s) := by
  obtain e | ⟨_, _, e⟩ | ⟨up, e⟩ := refreshIdle_cases p s <;> rw [e]
  · exact .refl s
  · exact unmoved_setPort ⟨rfl, rfl, fun _ h => h⟩
  · exact unmoved_setPort (portSteady_of_accepts (accepts_of_up up) rfl rfl)

theorem unmoved_enterDozeWait {p : PortIdx} {s : State} (h : (s.port p).state.accepts = true) :
    Unmoved s (enterDozeWait p s) := unmoved_setPort (portSteady_of_accepts h rfl rfl)

theorem unmoved_enterWaking {p : PortIdx} {s : State} (h : (s.port p).state.accepts = true) (started : Bool) :
    Unmoved s (enterWaking started p s) := by
  unfold enterWaking
  refine Unmoved.trans ?_ (unmoved_modLink ..)
  exact unmoved_setPort (portSteady_of_accepts h rfl rfl)

theorem unmoved_serveClaims (s : State) : Unmoved s (serveClaims s) where
  windows := serveClaims_windows s
  holdLists := serveClaims_holdLists s
  entries := serveClaims_entries s
  sentOrder := serveClaims_sentOrder s
  replyLane := serveClaims_replyLane s
  ports p := (serveClaims_port s p).steady

theorem unmoved_arrival (i : LineIdx) (s : State) : Unmoved s (arrival i s) :=
  (unmoved_setLine ..).trans (unmoved_serveClaims _)

theorem unmoved_recordFault (k : FaultKind) (src : FaultSource) (w : Option WindowIdx) (t : Option (BitVec 6))
    (a : Option HostAddr) (c : Option FaultCount) (s : State) : Unmoved s (recordFault k src w t a c s) where
  windows := recordFault_windows ..
  holdLists := recordFault_holdLists ..
  entries := recordFault_entries ..
  sentOrder := recordFault_sentOrder ..
  replyLane := recordFault_replyLane ..
  ports p := (recordFault_port k src w t a c s p).steady

theorem unmoved_discardFrame (l : Link) (s : State) : Unmoved s (discardFrame l s) := unmoved_modLink ..

theorem unmoved_frameInvalid (l : Link) (kind : Byte) (c : Option CreditClass) (s : State) :
    Unmoved s (frameInvalid l kind c s) := by
  unfold frameInvalid
  cases c with
  | none => exact (unmoved_discardFrame l s).trans (unmoved_recordFault ..)
  | some c => exact (unmoved_discardFrame l s).trans ((unmoved_consume ..).trans (unmoved_recordFault ..))

theorem unmoved_creditOverrun (l : Link) (c : CreditClass) (t : Option (BitVec 6)) (a : HostAddr) (s : State) :
    Unmoved s (creditOverrun l c t a s) :=
  (unmoved_discardFrame l s).trans ((unmoved_consume ..).trans (unmoved_recordFault ..))

theorem unmoved_dueSync (l : Link) (s : State) : Unmoved s (dueSync l s) := by
  unfold dueSync sendSync
  split <;> exact unmoved_modLink ..

/-- The trunk, or a port that accepts requests. -/
def State.linkOpen (s : State) : Link → Prop
  | .trunk => True
  | .branch p => (s.port p).state.accepts = true

theorem Unmoved.linkOpen {s t : State} (h : Unmoved s t) {l : Link} (hl : s.linkOpen l) : t.linkOpen l := by
  cases l with
  | trunk => trivial
  | branch p => exact (h.ports p).accepts.trans hl

/-- An open link's entry to TRAINING (R87). -/
theorem unmoved_startTraining {l : Link} {s : State} (h : s.linkOpen l) : Unmoved s (startTraining l s) := by
  have training : Unmoved s (setTraining l s) := by
    cases l with
    | trunk => exact {}
    | branch p => exact unmoved_setPort (portSteady_of_accepts h rfl rfl)
  exact training.trans ((unmoved_modLink ..).trans (unmoved_dueSync ..))

/-- A link that does anything with a frame is open (R92, R97). -/
theorem linkOpen_of_rxPhase {s : State} {l : Link} (h : s.rxPhase l ≠ .deaf) : s.linkOpen l := by
  cases l with
  | trunk => trivial
  | branch p =>
    unfold State.rxPhase at h
    split at h
    · show (s.port p).state.accepts = true
      cases hp : (s.port p).state <;> simp_all [PortState.accepts]
    · exact absurd rfl h

theorem unmoved_crcFail (l : Link) (s : State) : Unmoved s (crcFail l s) := by
  unfold crcFail
  split
  · exact .refl s
  · rename_i hl
    have counted := (unmoved_modLink l (fun e => { e with crcErrors := e.crcErrors + 1 }) s).trans
      (unmoved_recordFault .crcError (linkSource l) none none none none _)
    exact counted.trans (unmoved_startTraining (counted.linkOpen (linkOpen_of_rxPhase (by rw [hl]; decide))))
  · exact unmoved_modLink ..
  · exact unmoved_modLink ..
  · exact unmoved_modLink ..

/-! ### Every READ in its place -/

/-- A port in OFF or DOWN has an empty queue, an empty buffer and an empty sent order (R111). -/
def State.closedEmpty (s : State) : Prop :=
  ∀ p, (s.port p).state.accepts = false → (s.port p).queue = [] ∧ (s.port p).buffer = [] ∧ s.sentOf p = []

/-- Where every READ is in its place, an empty queue and sent order mean that no entry works for the port. -/
theorem portsQuiet_iff {s : State} (h : s.placed) : s.portsQuiet ↔ s.closedEmpty := by
  refine forall_congr' fun p => imp_congr_right fun _ => and_congr_right fun hq => and_congr_right fun _ => ?_
  have sent : s.sentOf p = [] ↔ ∀ i, (s.entry i).place ≠ some (.sent p) := by
    rw [List.eq_nil_iff_forall_not_mem]
    exact forall_congr' fun i => not_congr (h.mem_iff (x := .sent p))
  have queued : ∀ i, (s.entry i).place ≠ some (.queued p) := fun i hi => by
    have := (h.mem_iff (x := .queued p)).mpr hi
    simp [State.readsAt, hq] at this
  rw [sent]
  refine forall_congr' fun i => ?_
  rw [← Bool.not_eq_true, worksFor_iff, not_or]
  exact and_iff_right (queued i)

/-- Every READ stays in its place, and closed ports stay empty. -/
structure Housed (s t : State) : Prop where
  placed : s.placed → t.placed
  closed : s.placed → s.closedEmpty → t.closedEmpty

theorem Housed.refl (s : State) : Housed s s := ⟨id, fun _ => id⟩

theorem Housed.trans {s t u : State} (h : Housed s t) (k : Housed t u) : Housed s u :=
  ⟨k.placed ∘ h.placed, fun hs hc => k.closed (h.placed hs) (h.closed hs hc)⟩

theorem Unmoved.entry {s t : State} (h : Unmoved s t) (i : EntryIdx) : t.entry i = s.entry i := by
  rw [State.entry, h.entries]; rfl

theorem Unmoved.holdList {s t : State} (h : Unmoved s t) (w : WindowIdx) : t.holdList w = s.holdList w := by
  rw [State.holdList, h.holdLists]; rfl

theorem Unmoved.window {s t : State} (h : Unmoved s t) (w : WindowIdx) : t.window w = s.window w := by
  rw [State.window, h.windows]; rfl

theorem Unmoved.sentOf {s t : State} (h : Unmoved s t) (p : PortIdx) : t.sentOf p = s.sentOf p := by
  rw [State.sentOf, h.sentOrder]; rfl

theorem Unmoved.readsAt {s t : State} (h : Unmoved s t) (x : Place) : t.readsAt x = s.readsAt x := by
  cases x with
  | held w => exact congrArg heldReads (h.holdList w)
  | queued p => exact congrArg queuedReads (h.ports p).queue
  | sent p => exact h.sentOf p
  | lane => exact h.replyLane

theorem Unmoved.entryPlaced {s t : State} (h : Unmoved s t) {i : EntryIdx} (hi : EntryPlaced s i) : EntryPlaced t i :=
  ⟨by rw [h.entry]; exact hi.named, fun x => by rw [h.readsAt, h.entry]; exact hi.count x⟩

theorem Unmoved.housed {s t : State} (h : Unmoved s t) : Housed s t where
  placed hs := placed_iff.mpr fun i => h.entryPlaced (placed_iff.mp hs i)
  closed _ hc p hp := by
    have hp' : (s.port p).state.accepts = false := (h.ports p).accepts.symm.trans hp
    obtain ⟨queue, buffer, sent⟩ := hc p hp'
    exact ⟨(h.ports p).queue.trans queue, (h.ports p).buffer hp' buffer, (h.sentOf p).trans sent⟩

/-- Closed ports stay empty where the ports are steady and no sent order grows. -/
theorem closedEmpty_of_steady {s t : State} (hp : ∀ p, PortSteady (s.port p) (t.port p))
    (hs : ∀ p, s.sentOf p = [] → t.sentOf p = []) (h : s.closedEmpty) : t.closedEmpty := by
  intro p ha
  have ha' : (s.port p).state.accepts = false := (hp p).accepts.symm.trans ha
  obtain ⟨queue, buffer, sent⟩ := h p ha'
  exact ⟨(hp p).queue.trans queue, (hp p).buffer ha' buffer, hs p sent⟩

/-! ### Every window drained -/

/-- No window claims the queue of a port while the port has a free slot (R34). -/
def State.granted (s : State) (p : PortIdx) : Prop := s.egressFree p = true → ∀ w, s.windowClaims p w = false

/-- Windows stay drained as far as they can be: no port leaves a claim waiting that left none before, and no head fails its
examination in a window where none failed before. -/
structure Drains (s t : State) : Prop where
  granted : ∀ p, s.granted p → t.granted p
  passing : ∀ w, s.headFails w = false → t.headFails w = false

theorem Drains.refl (s : State) : Drains s s := ⟨fun _ => id, fun _ => id⟩

theorem Drains.trans {s t u : State} (h : Drains s t) (k : Drains t u) : Drains s u :=
  ⟨fun p => k.granted p ∘ h.granted p, fun w => k.passing w ∘ h.passing w⟩

/-- The slots are granted where no port leaves a claim waiting. -/
theorem slotsGranted_iff {s : State} : s.slotsGranted ↔ ∀ p, s.granted p := by
  constructor
  · intro h p hf w
    rw [Bool.eq_false_iff]
    intro hc
    simp only [State.windowClaims, Bool.and_eq_true, decide_eq_true_eq] at hc
    obtain ⟨⟨drains, port⟩, head⟩ := hc
    cases hl : s.holdList w with
    | nil => simp [hl] at head
    | cons x rest =>
      simp only [hl, Option.isNone_iff_eq_none] at head
      have := h w x drains (by rw [hl]; rfl) head
      rw [port, hf] at this
      cases this
  · intro h w x drains head pass
    rw [Bool.eq_false_iff]
    intro hf
    obtain ⟨rest, hl⟩ := List.head?_eq_some_iff.mp head
    have := h _ hf w
    rw [windowClaims_of_passing drains rfl hl pass] at this
    cases this

theorem headFails_eq_false_iff {s : State} {w : WindowIdx} : s.headFails w = false ↔
    ∀ h, s.windowState w = .drain → (s.holdList w).head? = some h → s.releaseFailure w h = none := by
  rw [← Bool.not_eq_true, headFails_eq_true]
  constructor
  · intro hn h drains head
    obtain ⟨rest, hl⟩ := List.head?_eq_some_iff.mp head
    by_contra hc
    exact hn ⟨drains, h, rest, hl, Option.isSome_iff_ne_none.mpr hc⟩
  · rintro ha ⟨drains, h, rest, hl, fails⟩
    rw [ha h drains (by rw [hl]; rfl)] at fails
    cases fails

/-- Every window is drained where all slots are granted and no head fails. -/
theorem drained_iff {s : State} : s.drained ↔ (∀ p, s.granted p) ∧ ∀ w, s.headFails w = false := by
  rw [← slotsGranted_iff]
  simp only [headFails_eq_false_iff]
  exact ⟨fun h => ⟨fun w x hd hh _ => (h w x hd hh).2, fun w x hd hh => (h w x hd hh).1⟩,
    fun ⟨slots, passing⟩ w x hd hh => ⟨passing w x hd hh, slots w x hd hh (passing w x hd hh)⟩⟩

/-- A window with the head of its list, and whether its port accepts, are as they were. -/
structure Alike (w : WindowIdx) (s t : State) : Prop where
  window : t.window w = s.window w
  head : (t.holdList w).head? = (s.holdList w).head?
  accepts : (t.port (s.window w).portIdx).state.accepts = (s.port (s.window w).portIdx).state.accepts

section
variable {s t : State} {w : WindowIdx} {p : PortIdx}

/-- The state of a window rests on its record, and on whether its list has a head (R3). -/
theorem windowState_congr (hw : t.window w = s.window w) (hl : (t.holdList w).head? = (s.holdList w).head?) :
    t.windowState w = s.windowState w := by
  have empty : (t.holdList w).isEmpty = (s.holdList w).isEmpty := by
    cases hs : s.holdList w <;> cases ht : t.holdList w <;> simp_all
  simp only [State.windowState, hw, empty]

theorem headFails_eq : s.headFails w =
    (decide (s.windowState w = .drain) && (s.holdList w).head?.any fun x => (s.releaseFailure w x).isSome) := by
  unfold State.headFails
  cases s.holdList w <;> rfl

theorem windowClaims_eq : s.windowClaims p w =
    (decide (s.windowState w = .drain) && decide ((s.window w).portIdx = p) &&
      (s.holdList w).head?.any fun x => (s.releaseFailure w x).isNone) := by
  unfold State.windowClaims
  cases s.holdList w <;> rfl

theorem Alike.releaseFailure (h : Alike w s t) (x : Held) : t.releaseFailure w x = s.releaseFailure w x := by
  simp only [State.releaseFailure, h.window, h.accepts]

theorem Alike.headFails (h : Alike w s t) : t.headFails w = s.headFails w := by
  simp only [headFails_eq, windowState_congr h.window h.head, h.head, h.releaseFailure]

theorem Alike.windowClaims (h : Alike w s t) : t.windowClaims p w = s.windowClaims p w := by
  simp only [windowClaims_eq, windowState_congr h.window h.head, h.head, h.releaseFailure, h.window]

/-- A window claims the queue of its own port alone. -/
theorem windowClaims_of_other_port (h : (s.window w).portIdx ≠ p) : s.windowClaims p w = false := by
  simp [State.windowClaims, h]

/-- A port whose windows are as they were and that has no new free slot has no new claim waiting. -/
theorem granted_of_alike (h : s.granted p) (ha : ∀ w, (t.window w).portIdx = p → Alike w s t)
    (hf : t.egressFree p = true → s.egressFree p = true) : t.granted p := by
  intro free w
  by_cases hw : (t.window w).portIdx = p
  · rw [(ha w hw).windowClaims]
    exact h (hf free) w
  · exact windowClaims_of_other_port hw

end

theorem egressFree_congr {s t : State} {p : PortIdx} (ha : (t.port p).state.accepts = (s.port p).state.accepts)
    (hq : (t.port p).queue = (s.port p).queue) : t.egressFree p = s.egressFree p := by
  simp only [State.egressFree, ha, hq]

/-- A port that accepts requests as before, and has no fewer in its queue, has no new free slot. -/
theorem egressFree_of_longer {s t : State} {p : PortIdx} (ha : (t.port p).state.accepts = (s.port p).state.accepts)
    (hq : (s.port p).queue.length ≤ (t.port p).queue.length) (hf : t.egressFree p = true) : s.egressFree p = true := by
  simp only [State.egressFree, Bool.and_eq_true, decide_eq_true_eq] at hf ⊢
  exact ⟨ha.symm.trans hf.1, Nat.lt_of_le_of_lt hq hf.2⟩

/-- Where every window is as it was and no slot becomes free, every window is as drained as it was. -/
theorem drains_of_alike {s t : State} (h : ∀ w, Alike w s t) (ha : ∀ p, (t.port p).state.accepts = (s.port p).state.accepts)
    (hq : ∀ p, (s.port p).queue.length ≤ (t.port p).queue.length) : Drains s t :=
  ⟨fun p hg => granted_of_alike hg (fun w _ => h w) (egressFree_of_longer (ha p) (hq p)),
    fun w hw => (h w).headFails.trans hw⟩

/-- Records and lists as they were, and ports steady, leave every window drained that was. -/
theorem drains_of_steady {s t : State} (hw : t.windows = s.windows) (hl : t.holdLists = s.holdLists)
    (hp : ∀ p, PortSteady (s.port p) (t.port p)) : Drains s t :=
  drains_of_alike (fun w => ⟨by rw [State.window, hw]; rfl, by rw [State.holdList, hl]; rfl, (hp _).accepts⟩)
    (fun p => (hp p).accepts) (fun p => by rw [(hp p).queue])

/-- Both at once. -/
structure Orderly (s t : State) : Prop where
  housed : Housed s t
  drains : Drains s t

theorem Orderly.refl (s : State) : Orderly s s := ⟨.refl s, .refl s⟩

theorem Orderly.trans {s t u : State} (h : Orderly s t) (k : Orderly t u) : Orderly s u :=
  ⟨h.housed.trans k.housed, h.drains.trans k.drains⟩

theorem Unmoved.orderly {s t : State} (h : Unmoved s t) : Orderly s t :=
  ⟨h.housed, drains_of_steady h.windows h.holdLists h.ports⟩

end Sys2Proof.Machine
end

section
/-! Every READ stays in its place (O54): the hold lists, the branch egress queues, the flush of a port and trunk loss. -/

namespace Sys2Proof.Machine

-- The theorems are checked one after the other, which bounds the memory that the check takes.
set_option Elab.async false

/-! ### An entry that leaves its place -/

/-- Where no entry and no place changes, every READ is in its place as before. -/
theorem placed_of_readsAt {s t : State} (he : ∀ i, t.entry i = s.entry i) (hr : ∀ x, t.readsAt x = s.readsAt x)
    (h : s.placed) : t.placed := by
  refine placed_iff.mpr fun i => ⟨?_, fun x => ?_⟩
  · rw [he]; exact (placed_iff.mp h i).named
  · rw [he, hr]; exact (placed_iff.mp h i).count x

/-- An entry with a place other than the reply lane is live and not in REPLYING. -/
theorem live_of_place {e : Entry} {x : Place} (h : e.place = some x) (hx : x ≠ .lane) :
    ∃ v, e.live = some v ∧ v.stage.isReplying = false := by
  obtain ⟨v, hv, hp⟩ := Option.bind_eq_some_iff.mp h
  refine ⟨v, hv, ?_⟩
  cases hs : v.stage with
  | held | queued r | sent r => rfl
  | replying r st d =>
    rw [Live.place, hs] at hp
    exact absurd (Option.some.inj hp).symm hx

/-- Entry `i` has left its place and stands nowhere; no other entry moved. -/
structure Detached (i : EntryIdx) (s t : State) : Prop where
  others : MovesOnly i s t
  nowhere : ∀ x, (t.readsAt x).count i = 0
  live : ∃ v, (t.entry i).live = some v ∧ v.stage.isReplying = false

theorem Detached.answerable {i : EntryIdx} {s t : State} (h : Detached i s t) : Answerable t i :=
  ⟨h.live, fun x _ => h.nowhere x⟩

theorem Detached.placed_toReplying {i : EntryIdx} {s t : State} (h : Detached i s t) (hs : s.placed) (st : Status)
    (data : List Byte) : (toReplying i st data t).placed :=
  Machine.placed_toReplying h.answerable (fun j hj => h.others.entryPlaced hj (placed_iff.mp hs j)) st data

/-- An entry leaves place `x` where the place loses it and no other, and no entry and no other place changes. -/
theorem detached_of_readsAt {s t : State} {i : EntryIdx} {x : Place} (hs : s.placed) (hi : i ∈ s.readsAt x) (hx : x ≠ .lane)
    (he : ∀ j, t.entry j = s.entry j) (hother : ∀ y, y ≠ x → t.readsAt y = s.readsAt y)
    (hgone : (t.readsAt x).count i = 0) (hkept : ∀ j, j ≠ i → (t.readsAt x).count j = (s.readsAt x).count j) :
    Detached i s t := by
  have place := hs.mem_iff.mp hi
  refine ⟨⟨fun j _ => he j, fun j hj y => ?_⟩, fun y => ?_, by rw [he]; exact live_of_place place hx⟩
  · by_cases hy : y = x
    · rw [hy]; exact hkept j hj
    · rw [hother y hy]
  · by_cases hy : y = x
    · rw [hy]; exact hgone
    · rw [hother y hy, (placed_iff.mp hs i).count, once_decide_eq_zero, place]
      exact fun e => hy (Option.some.inj e).symm

/-- The first entry of a list of different entries leaves it. -/
theorem count_tail_of_nodup {i : EntryIdx} {l k : List EntryIdx} (hl : l = i :: k) (hn : l.Nodup) :
    k.count i = 0 ∧ ∀ j, j ≠ i → k.count j = l.count j := by
  subst hl
  exact ⟨List.count_eq_zero.mpr (List.nodup_cons.mp hn).1, fun j hj => by simp [Ne.symm hj]⟩

/-- The READ at the head of a hold list leaves it. -/
theorem detached_heldHead {s : State} {w : WindowIdx} {x : Held} {rest : List Held} {i : EntryIdx} (hs : s.placed)
    (hl : s.holdList w = x :: rest) (hb : x.body = .read i) : Detached i s (s.setHoldList w rest) := by
  have reads : s.readsAt (.held w) = i :: heldReads rest := by simp [State.readsAt, hl, heldReads_cons, hb]
  have after : (s.setHoldList w rest).readsAt (.held w) = heldReads rest := by simp [readsAt_setHoldList]
  obtain ⟨gone, kept⟩ := count_tail_of_nodup reads (hs.nodup _)
  refine detached_of_readsAt hs (x := .held w) (by rw [reads]; exact List.mem_cons_self) (by simp) (fun _ => rfl)
    (fun y hy => by rw [readsAt_setHoldList, if_neg hy]) (by rw [after]; exact gone) (fun j hj => by rw [after]; exact kept j hj)

/-- A READ that is removed from a hold list leaves it, wherever it stands. -/
theorem detached_removeHeld {s : State} {w : WindowIdx} {i : EntryIdx} (hs : s.placed)
    (hi : (s.entry i).place = some (.held w)) : Detached i s (removeHeld w i s) := by
  have after : (removeHeld w i s).readsAt (.held w) = (s.readsAt (.held w)).filter (· ≠ i) := by
    rw [removeHeld, readsAt_setHoldList, if_pos rfl, heldReads_filter]; rfl
  refine detached_of_readsAt hs (x := .held w) (hs.mem_iff.mpr hi) (by simp) (fun _ => rfl)
    (fun y hy => by rw [removeHeld, readsAt_setHoldList, if_neg hy]) ?_ fun j hj => ?_
  · rw [after, count_filter_ne, if_pos rfl]
  · rw [after, count_filter_ne, if_neg hj]

/-- A READ that is removed from a branch egress queue leaves it, wherever it stands. -/
theorem detached_removeQueued {s : State} {p : PortIdx} {i : EntryIdx} (hs : s.placed)
    (hi : (s.entry i).place = some (.queued p)) : Detached i s (removeQueued p i s) := by
  have after : (removeQueued p i s).readsAt (.queued p) = (s.readsAt (.queued p)).filter (· ≠ i) := by
    rw [removeQueued, State.modPort_eq, readsAt_setPort, if_pos rfl, queuedReads_filter]; rfl
  refine detached_of_readsAt hs (x := .queued p) (hs.mem_iff.mpr hi) (by simp) (fun _ => rfl)
    (fun y hy => by rw [removeQueued, State.modPort_eq, readsAt_setPort, if_neg hy]) ?_ fun j hj => ?_
  · rw [after, count_filter_ne, if_pos rfl]
  · rw [after, count_filter_ne, if_neg hj]

/-- The READ at the head of a branch egress queue leaves it. -/
theorem detached_queueHead {s : State} {p : PortIdx} {q : Queued} {b : PortBlock} {i : EntryIdx} (hs : s.placed)
    (hq : (s.port p).queue = q :: b.queue) (hb : q.body = .read i) : Detached i s (s.setPort p b) := by
  have reads : s.readsAt (.queued p) = i :: queuedReads b.queue := by simp [State.readsAt, hq, queuedReads_cons, hb]
  have after : (s.setPort p b).readsAt (.queued p) = queuedReads b.queue := by simp [readsAt_setPort]
  obtain ⟨gone, kept⟩ := count_tail_of_nodup reads (hs.nodup _)
  refine detached_of_readsAt hs (x := .queued p) (by rw [reads]; exact List.mem_cons_self) (by simp) (fun _ => rfl)
    (fun y hy => by rw [readsAt_setPort, if_neg hy]) (by rw [after]; exact gone) (fun j hj => by rw [after]; exact kept j hj)

/-- An entry that stands nowhere joins the place that its state gives it, at the tail. -/
theorem placed_join {s t : State} {i : EntryIdx} {x : Place} (hothers : ∀ j, j ≠ i → EntryPlaced s j)
    (hnowhere : ∀ y, (s.readsAt y).count i = 0) (he : ∀ j, t.entry j = s.entry j)
    (hr : ∀ y, t.readsAt y = if y = x then s.readsAt y ++ [i] else s.readsAt y) (hn : (s.entry i).heldNamed = true)
    (hp : (s.entry i).place = some x) : t.placed := by
  refine placed_iff.mpr fun j => ⟨?_, fun y => ?_⟩
  · rw [he]
    by_cases hj : j = i
    · rw [hj]; exact hn
    · exact (hothers j hj).named
  · rw [hr, he]
    by_cases hj : j = i
    · subst hj
      rw [hp]
      by_cases hy : y = x
      · simp [hy, hnowhere x, once]
      · simp [hy, hnowhere y, once, Ne.symm hy]
    · have same : (if y = x then s.readsAt y ++ [i] else s.readsAt y).count j = (s.readsAt y).count j := by
        split <;> simp [Ne.symm hj]
      rw [same]
      exact (hothers j hj).count y

/-! ### Answers and examinations -/

/-- No sent order grows where an entry is answered. -/
theorem sentOf_toReplying_nil {s : State} {p : PortIdx} (h : s.sentOf p = []) (i : EntryIdx) (st : Status)
    (data : List Byte) : (toReplying i st data s).sentOf p = [] := by
  obtain ⟨e, _⟩ | ⟨v, _, _, e⟩ := toReplying_cases i st data s <;> rw [e]
  · exact h
  · have := readsAt_answered s i v st data (.sent p)
    simp only [State.readsAt, h, List.filter_nil] at this
    exact this

theorem port_toReplying (s : State) (i : EntryIdx) (st : Status) (data : List Byte) (p : PortIdx) :
    (toReplying i st data s).port p = s.port p := by
  rw [State.port, toReplying_ports]; rfl

theorem closedEmpty_toReplying {s : State} (h : s.closedEmpty) (i : EntryIdx) (st : Status) (data : List Byte) :
    (toReplying i st data s).closedEmpty :=
  closedEmpty_of_steady (fun p => by rw [port_toReplying]; exact .refl _)
    (fun _ hn => sentOf_toReplying_nil hn i st data) h

/-- The head of a hold list ends: its READ is answered, its WRITE discarded (R20, R28). -/
theorem housed_endHead {s : State} {w : WindowIdx} {x : Held} {rest : List Held} (hl : s.holdList w = x :: rest)
    (st : Status) : Housed s (endHeld st x (s.setHoldList w rest)) := by
  cases hb : x.body with
  | write d =>
    have same : ∀ y, (s.setHoldList w rest).readsAt y = s.readsAt y := by
      intro y
      rw [readsAt_setHoldList]
      split
      · rename_i hy; simp [hy, State.readsAt, hl, heldReads_cons, hb]
      · rfl
    simp only [endHeld, hb]
    exact ⟨placed_of_readsAt (fun _ => rfl) same, fun _ h => h⟩
  | read i =>
    simp only [endHeld, hb]
    exact ⟨fun hs => (detached_heldHead hs hl hb).placed_toReplying hs st [],
      fun _ hc => closedEmpty_toReplying (s := s.setHoldList w rest) hc i st []⟩

theorem housed_failRun (w : WindowIdx) (n : Nat) (s : State) : Housed s (failRun w n s) := by
  induction n generalizing s with
  | zero => exact .refl s
  | succ n ih =>
    simp only [failRun]
    split
    · split
      · exact .refl s
      · rename_i x rest hl
        split
        · exact .refl s
        · exact (housed_endHead hl _).trans ((unmoved_recordFault ..).housed.trans (ih _))
    · exact .refl s

theorem housed_examineHeads (w : WindowIdx) (s : State) : Housed s (examineHeads w s) := housed_failRun ..

theorem housed_foldl {α : Type} {f : State → α → State} (h : ∀ s x, Housed s (f s x)) (l : List α) (s : State) :
    Housed s (l.foldl f s) := by
  induction l generalizing s with
  | nil => exact .refl s
  | cons x l ih => exact (h s x).trans (ih _)

theorem housed_examineAll (s : State) : Housed s (examineAll s) := housed_foldl (fun s w => housed_examineHeads w s) _ s

theorem housed_examinePort (p : PortIdx) (s : State) : Housed s (examinePort p s) :=
  housed_foldl (fun s w => by split; exacts [housed_examineHeads w s, .refl s]) _ s

/-! ### Releases -/

/-- A port whose queue takes a request accepts requests or not as before. -/
theorem accepts_withRequest (b : PortBlock) (q : Queued) (now : Time) :
    (b.withRequest q now).state.accepts = b.state.accepts := by
  unfold PortBlock.withRequest
  split
  all_goals rename_i h; rw [h]
  all_goals rfl

theorem closedEmpty_setPort {s : State} (h : s.closedEmpty) (p : PortIdx) {b : PortBlock} (hb : b.state.accepts = true) :
    (s.setPort p b).closedEmpty := by
  intro k hk
  rw [State.port_setPort] at hk ⊢
  split at hk
  · rw [hb] at hk; cases hk
  · rename_i hne
    rw [if_neg hne]
    exact h k hk

/-- A READ that stands nowhere joins the queue of the port that its entry names. -/
theorem placed_placeEgress_read {s : State} {p : PortIdx} {a : ModuleAddr} {n : Nat} {i : EntryIdx}
    (hothers : ∀ j, j ≠ i → EntryPlaced s j) (hnowhere : ∀ y, (s.readsAt y).count i = 0)
    (hn : (s.entry i).heldNamed = true) (hp : (s.entry i).place = some (.queued p)) :
    (placeEgress p ⟨a, n, .read i⟩ s).placed := by
  rw [placeEgress_eq]
  refine placed_join hothers hnowhere (fun _ => rfl) (fun y => ?_) hn hp
  rw [readsAt_setPort, (withRequest_queue ..).1]
  split
  · rename_i hy; simp [hy, State.readsAt, queuedReads_cons]
  · rfl

/-- A WRITE that joins a queue moves no READ. -/
theorem placed_placeEgress_write {s : State} (hs : s.placed) (p : PortIdx) (a : ModuleAddr) (n : Nat) (d : List Byte) :
    (placeEgress p ⟨a, n, .write d⟩ s).placed := by
  rw [placeEgress_eq]
  refine placed_of_readsAt (s := s) (fun _ => rfl) (fun y => ?_) hs
  rw [readsAt_setPort, (withRequest_queue ..).1]
  split
  · rename_i hy; simp [hy, State.readsAt, queuedReads_cons]
  · rfl

theorem closedEmpty_placeEgress {s : State} (h : s.closedEmpty) {p : PortIdx} (hp : (s.port p).state.accepts = true)
    (q : Queued) : (placeEgress p q s).closedEmpty := by
  rw [placeEgress_eq]
  exact closedEmpty_setPort h p (by rw [accepts_withRequest]; exact hp)

theorem egressFree_accepts {s : State} {p : PortIdx} (h : s.egressFree p = true) : (s.port p).state.accepts = true := by
  rw [State.egressFree, Bool.and_eq_true] at h
  exact h.1

/-- The head of a list goes from its list to the queue of its window's port (R30). -/
theorem housed_release {s : State} {w : WindowIdx} (h : s.egressFree (s.window w).portIdx = true) :
    Housed s (release w s) := by
  have accepts := egressFree_accepts h
  cases hl : s.holdList w with
  | nil => simp only [release, hl]; exact .refl s
  | cons x rest =>
    cases hb : x.body with
    | write d =>
      rw [release_write hl hb, hb]
      have ended := housed_endHead hl .refused
      simp only [endHeld, hb] at ended
      exact ended.trans ⟨fun hs => placed_placeEgress_write hs _ _ _ _, fun _ hc => closedEmpty_placeEgress hc accepts _⟩
    | read i =>
      rw [release_read hl hb, hb]
      refine ⟨fun hs => ?_, fun _ hc => closedEmpty_placeEgress (s := setStage i _ (s.setHoldList w rest)) hc accepts _⟩
      have left := detached_heldHead hs hl hb
      obtain ⟨v, hv, _⟩ := left.live
      rw [setStage_live hv]
      have moved := left.others.trans (movesOnly_setEntry i ⟨((s.setHoldList w rest).entry i).epoch,
        some { v with stage := .queued ⟨(s.window w).portIdx, (s.window w).translate x.address⟩ }⟩ _)
      refine placed_placeEgress_read (fun j hj => moved.entryPlaced hj (placed_iff.mp hs j))
        (fun y => by rw [readsAt_setEntry]; exact left.nowhere y) ?_ ?_ <;> rw [State.entry_setEntry_self] <;> rfl

theorem port_of_claimingWindow {s : State} {p : PortIdx} {w : WindowIdx} (h : s.claimingWindow p = some w) :
    (s.window w).portIdx = p := by
  have claims := List.find?_some h
  simp only [State.windowClaims, Bool.and_eq_true, decide_eq_true_eq] at claims
  exact claims.1.2

theorem housed_grantLoop (p : PortIdx) (n : Nat) (s : State) : Housed s (grantLoop p n s) := by
  induction n generalizing s with
  | zero => exact .refl s
  | succ n ih =>
    simp only [grantLoop]
    split
    · rename_i hf
      split
      · rename_i w hc
        rw [← port_of_claimingWindow hc] at hf
        exact (housed_release hf).trans ((housed_examineHeads ..).trans (ih _))
      · exact .refl s
    · exact .refl s

theorem housed_grantWindows (p : PortIdx) (s : State) : Housed s (grantWindows p s) := housed_grantLoop ..

theorem housed_grantAll (s : State) : Housed s (grantAll s) := housed_foldl (fun s p => housed_grantWindows p s) _ s

/-! ### The flush of a port -/

/-- Entries that can each be answered, all different, are in their places after they are answered. -/
theorem placed_foldl_toReplying {l : List EntryIdx} {s : State} (hn : l.Nodup) (ha : ∀ i ∈ l, Answerable s i)
    (ho : ∀ i, i ∉ l → EntryPlaced s i) (st : Status) : (l.foldl (fun s i => toReplying i st [] s) s).placed := by
  induction l generalizing s with
  | nil => exact placed_iff.mpr fun i => ho i List.not_mem_nil
  | cons i l ih =>
    obtain ⟨hi, hn⟩ := List.nodup_cons.mp hn
    have first := ha i List.mem_cons_self
    obtain ⟨v, hv, hr⟩ := first.live
    have moved : MovesOnly i s (toReplying i st [] s) := by
      rw [toReplying_live hv hr]; exact movesOnly_answered ..
    refine ih hn (fun j hj => ?_) fun j hj => ?_
    · have hne : j ≠ i := fun e => hi (e ▸ hj)
      obtain ⟨live, nowhere⟩ := ha j (List.mem_cons_of_mem i hj)
      exact ⟨by rw [moved.entry j hne]; exact live, fun x hx => by rw [moved.count j hne]; exact nowhere x hx⟩
    · by_cases hne : j = i
      · subst hne
        show EntryPlaced (toReplying j st [] s) j
        rw [toReplying_live hv hr]
        exact entryPlaced_answered first ..
      · exact moved.entryPlaced hne (ho j fun hm => (List.mem_cons.mp hm).elim hne hj)

/-- Answering entries touches no port, so that the order of the two does not matter. -/
theorem toReplying_setPort (i : EntryIdx) (st : Status) (data : List Byte) (p : PortIdx) (b : PortBlock) (s : State) :
    toReplying i st data (s.setPort p b) = (toReplying i st data s).setPort p b := by
  unfold toReplying
  rw [State.entry_setPort]
  cases (s.entry i).live with
  | none => rfl
  | some v => simp only; split <;> rfl

theorem foldl_toReplying_setPort (l : List EntryIdx) (st : Status) (p : PortIdx) (b : PortBlock) (s : State) :
    l.foldl (fun s i => toReplying i st [] s) (s.setPort p b) =
      (l.foldl (fun s i => toReplying i st [] s) s).setPort p b := by
  induction l generalizing s with
  | nil => rfl
  | cons i l ih => rw [List.foldl_cons, List.foldl_cons, toReplying_setPort, ih]

theorem port_foldl_toReplying (l : List EntryIdx) (st : Status) (s : State) (p : PortIdx) :
    (l.foldl (fun s i => toReplying i st [] s) s).port p = s.port p := by
  induction l generalizing s with
  | nil => rfl
  | cons i l ih => rw [List.foldl_cons, ih, port_toReplying]

/-- What a flush leaves before its record: the port silent, then its READs answered (R78, R111). -/
def flushed (st : PortState) (p : PortIdx) (s : State) : State :=
  (s.flushAnswers p).foldl (fun s i => toReplying i .unclaimed [] s) (s.setPort p ((s.port p).silence st))

/-- A flush with its record, which is added if anything ended (R78, R111). -/
theorem flush_eq (st : PortState) (p : PortIdx) (s : State) :
    flush st p s = if (s.flushAnswers p).length = 0 ∧ s.flushWrites p = 0 then flushed st p s
      else recordFault .flush (.branch p) none none none
        (some (.pair (BitVec.ofNat 8 (s.flushAnswers p).length) (BitVec.ofNat 8 (s.flushWrites p)))) (flushed st p s) := by
  simp only [flush, State.modPort_eq, port_foldl_toReplying, flushed, foldl_toReplying_setPort]

/-- The entries that a flush answers are different, and stand at the two places of its port. -/
theorem flushAnswers_nodup {s : State} (hs : s.placed) (p : PortIdx) : (s.flushAnswers p).Nodup := by
  refine List.nodup_append.mpr ⟨hs.nodup (.sent p), hs.nodup (.queued p), fun i hi j hj e => ?_⟩
  subst e
  have sent := (hs.mem_iff (x := .sent p)).mp hi
  rw [(hs.mem_iff (x := .queued p)).mp hj] at sent
  cases sent

theorem mem_flushAnswers {s : State} (hs : s.placed) {p : PortIdx} {i : EntryIdx} :
    i ∈ s.flushAnswers p ↔ (s.entry i).worksFor p = true := by
  rw [worksFor_iff, ← hs.mem_iff, ← hs.mem_iff, or_comm]
  exact List.mem_append

theorem placed_flushed {s : State} (hs : s.placed) (st : PortState) (p : PortIdx) : (flushed st p s).placed := by
  have reads : ∀ x, (s.setPort p ((s.port p).silence st)).readsAt x = if x = .queued p then [] else s.readsAt x :=
    fun x => readsAt_setPort ..
  refine placed_foldl_toReplying (flushAnswers_nodup hs p) (fun i hi => ?_) (fun i hi => ?_) .unclaimed
  · have place := worksFor_iff.mp ((mem_flushAnswers hs).mp hi)
    have live : ∃ v, (s.entry i).live = some v ∧ v.stage.isReplying = false := by
      rcases place with place | place <;> exact live_of_place place (by simp)
    refine ⟨live, fun x hx => ?_⟩
    rw [reads]
    split
    · rfl
    · rename_i hq
      rw [(placed_iff.mp hs i).count, once_decide_eq_zero]
      rcases place with place | place <;> rw [place] <;> intro e
      · exact hq (Option.some.inj e).symm
      · exact hx p (Option.some.inj e).symm
  · refine ⟨(placed_iff.mp hs i).named, fun x => ?_⟩
    rw [reads]
    split
    · rename_i hx
      have : (s.entry i).place ≠ some (.queued p) := fun e =>
        hi ((mem_flushAnswers hs).mpr (worksFor_iff.mpr (.inl e)))
      rw [hx]
      exact (once_decide_eq_zero.mpr this).symm
    · exact (placed_iff.mp hs i).count x

/-- The sent order of a flushed port is empty. -/
theorem sentOf_flushed {s : State} (hs : s.placed) (st : PortState) (p : PortIdx) : (flushed st p s).sentOf p = [] := by
  have answered : ∀ (l : List EntryIdx) (u : State), (∀ i ∈ u.sentOf p, i ∈ l) →
      (∀ i ∈ l, ∃ v, (u.entry i).live = some v ∧ v.stage.isReplying = false) → l.Nodup →
      (l.foldl (fun s i => toReplying i .unclaimed [] s) u).sentOf p = [] := by
    intro l
    induction l with
    | nil => exact fun u hu _ _ => List.eq_nil_iff_forall_not_mem.mpr fun i hi => List.not_mem_nil (hu i hi)
    | cons i l ih =>
      intro u hu hl hn
      obtain ⟨hi, hn⟩ := List.nodup_cons.mp hn
      obtain ⟨v, hv, hr⟩ := hl i List.mem_cons_self
      rw [List.foldl_cons, toReplying_live hv hr]
      have order : (u.answered i v .unclaimed []).sentOf p = (u.sentOf p).filter (· ≠ i) :=
        readsAt_answered u i v .unclaimed [] (.sent p)
      refine ih _ (fun j hj => ?_) (fun j hj => ?_) hn
      · rw [order, List.mem_filter] at hj
        exact (List.mem_cons.mp (hu j hj.1)).resolve_left (by simpa using hj.2)
      · rw [(movesOnly_answered u i v .unclaimed []).entry j fun e => hi (e ▸ hj)]
        exact hl j (List.mem_cons_of_mem i hj)
  refine answered _ _ (fun i hi => List.mem_append_left _ hi) (fun i hi => ?_) (flushAnswers_nodup hs p)
  rcases worksFor_iff.mp ((mem_flushAnswers hs).mp hi) with place | place <;> exact live_of_place place (by simp)

theorem sentOf_flushed_nil {s : State} {q : PortIdx} (h : s.sentOf q = []) (st : PortState) (p : PortIdx) :
    (flushed st p s).sentOf q = [] := by
  have answered : ∀ (l : List EntryIdx) (u : State), u.sentOf q = [] →
      (l.foldl (fun s i => toReplying i .unclaimed [] s) u).sentOf q = [] := by
    intro l
    induction l with
    | nil => exact fun _ hu => hu
    | cons i l ih => exact fun u hu => ih _ (sentOf_toReplying_nil hu i .unclaimed [])
  exact answered _ _ h

theorem port_flushed (s : State) (st : PortState) (p q : PortIdx) :
    (flushed st p s).port q = if p = q then (s.port p).silence st else s.port q := by
  rw [flushed, port_foldl_toReplying, State.port_setPort]

theorem housed_flushed (st : PortState) (p : PortIdx) (s : State) : Housed s (flushed st p s) := by
  refine ⟨fun hs => placed_flushed hs st p, fun hs hc q hq => ?_⟩
  rw [port_flushed] at hq ⊢
  split at hq
  · rename_i hp
    subst hp
    rw [if_pos rfl]
    exact ⟨rfl, rfl, sentOf_flushed hs st p⟩
  · rename_i hp
    obtain ⟨queue, buffer, sent⟩ := hc q hq
    rw [if_neg hp]
    exact ⟨queue, buffer, sentOf_flushed_nil sent st p⟩

theorem housed_flush (st : PortState) (p : PortIdx) (s : State) : Housed s (flush st p s) := by
  rw [flush_eq]
  split
  · exact housed_flushed ..
  · exact (housed_flushed ..).trans (unmoved_recordFault ..).housed

theorem housed_portDown (st : PortState) (cause : Option FaultKind) (p : PortIdx) (s : State) :
    Housed s (portDown st cause p s) := by
  unfold portDown
  cases cause with
  | none => exact (housed_flush ..).trans (housed_examinePort ..)
  | some k => exact (unmoved_recordFault ..).housed.trans ((housed_flush ..).trans (housed_examinePort ..))

theorem housed_startTraining (l : Link) (s : State) : Housed s (startTraining l s) := by
  refine Housed.trans (t := setTraining l s) ?_ ((unmoved_modLink ..).trans (unmoved_dueSync ..)).housed
  cases l with
  | trunk => exact (Unmoved.housed {})
  | branch p =>
    refine ⟨placed_of_readsAt (fun _ => rfl) fun x => ?_, fun _ hc => closedEmpty_setPort hc p rfl⟩
    rw [setTraining, State.modPort_eq, readsAt_setPort]
    split
    · rename_i hx; rw [hx]; rfl
    · rfl

/-! ### Trunk loss -/

/-- Without a live entry and without READs in any place, every READ is in its place. -/
theorem placed_of_free {s : State} (he : ∀ i, (s.entry i).live = none) (hr : ∀ x, s.readsAt x = []) : s.placed :=
  placed_iff.mpr fun i => ⟨by simp [Entry.heldNamed, he i], fun x => by simp [hr x, Entry.place, he i, once]⟩

/-- Freeing every entry and dropping the READs leaves no READ anywhere (R37, R79). -/
theorem housed_dropReads (s : State) : Housed s (dropReads (freeEntries s)) := by
  have sent : ∀ p, (dropReads (freeEntries s)).sentOf p = [] := fun p => by
    simp [State.sentOf, dropReads, freeEntries]
  refine ⟨fun _ => placed_of_free (fun i => ?_) fun x => ?_, fun _ hc p hp => ?_⟩
  · simp [State.entry, dropReads, freeEntries]
  · cases x with
    | held w =>
      have := holdList_dropReads (freeEntries s) w
      rw [State.readsAt, this, heldReads_writes]
    | queued p =>
      have := port_dropReads (freeEntries s) p
      rw [State.readsAt, this, queuedReads_writes]
    | sent p => exact sent p
    | lane => rfl
  · rw [port_dropReads] at hp ⊢
    obtain ⟨queue, buffer, _⟩ := hc p hp
    have queue' : ((freeEntries s).port p).queue = [] := queue
    exact ⟨by simp [queue'], buffer, sent p⟩

theorem unmoved_foldl {α : Type} {f : State → α → State} (h : ∀ s x, Unmoved s (f s x)) (l : List α) (s : State) :
    Unmoved s (l.foldl f s) := by
  induction l generalizing s with
  | nil => exact .refl s
  | cons x l ih => exact (h s x).trans (ih _)

theorem unmoved_setTrunk (e : LinkEnd) (s : State) : Unmoved s { s with trunk := e } := {}

/-- After the requests are lost and the slots granted, trunk loss moves nothing (R130). -/
theorem unmoved_trunkLoss (cause : FaultKind) (s : State) : Unmoved (loseRequests s) (trunkLoss cause s) := by
  refine Unmoved.trans ?_ (unmoved_foldl (fun s p => unmoved_refreshIdle p s) _ _)
  have emptied : ∀ u : State, Unmoved u { u with generalQueue := [], lines := mapVec EventLine.renotify u.lines } :=
    fun _ => {}
  exact (emptied _).trans ((unmoved_recordFault ..).trans (unmoved_setTrunk ..))

theorem housed_trunkLoss (cause : FaultKind) (s : State) : Housed s (trunkLoss cause s) := by
  have emptied : Unmoved s (dropIngress { s with trunkState := .down, trunk := s.trunk.silence }) := {}
  exact emptied.housed.trans ((housed_dropReads _).trans ((housed_grantAll _).trans (unmoved_trunkLoss ..).housed))

end Sys2Proof.Machine
end

section
/-! Every window drained as far as it can be (O57): the examination, the branch egress slot arbiter, the entry of a port to DOWN
or OFF and to TRAINING, trunk loss and the tick. -/

namespace Sys2Proof.Machine

-- The theorems are checked one after the other, which bounds the memory that the check takes.
set_option Elab.async false

/-! ### A change of one window -/

/-- Nothing that draining rests on changes but window `w` with its list; no slot becomes free. -/
structure Narrow (w : WindowIdx) (s t : State) : Prop where
  window : ∀ x, x ≠ w → t.window x = s.window x
  holdList : ∀ x, x ≠ w → t.holdList x = s.holdList x
  accepts : ∀ p, (t.port p).state.accepts = (s.port p).state.accepts
  slots : ∀ p, (s.port p).queue.length ≤ (t.port p).queue.length

section
variable {w : WindowIdx} {s t u : State}

theorem Narrow.refl (w : WindowIdx) (s : State) : Narrow w s s :=
  ⟨fun _ _ => rfl, fun _ _ => rfl, fun _ => rfl, fun _ => Nat.le_refl _⟩

theorem Narrow.trans (h : Narrow w s t) (k : Narrow w t u) : Narrow w s u :=
  ⟨fun x hx => (k.window x hx).trans (h.window x hx), fun x hx => (k.holdList x hx).trans (h.holdList x hx),
    fun p => (k.accepts p).trans (h.accepts p), fun p => Nat.le_trans (h.slots p) (k.slots p)⟩

theorem Unmoved.narrow (h : Unmoved s t) (w : WindowIdx) : Narrow w s t :=
  ⟨fun x _ => h.window x, fun x _ => h.holdList x, fun p => (h.ports p).accepts,
    fun p => by rw [(h.ports p).queue]⟩

theorem Narrow.alike (h : Narrow w s t) {x : WindowIdx} (hx : x ≠ w) : Alike x s t :=
  ⟨h.window x hx, congrArg List.head? (h.holdList x hx), h.accepts _⟩

theorem Narrow.free (h : Narrow w s t) {p : PortIdx} : t.egressFree p = true → s.egressFree p = true :=
  egressFree_of_longer (h.accepts p) (h.slots p)

/-- The other windows are drained as before. -/
theorem Narrow.passing (h : Narrow w s t) {x : WindowIdx} (hx : x ≠ w) : t.headFails x = s.headFails x :=
  (h.alike hx).headFails

/-- The ports of the other windows have no new claim waiting. -/
theorem Narrow.granted (h : Narrow w s t) {p : PortIdx} (hp : t.windowClaims p w = false) (hg : s.granted p) :
    t.granted p := by
  intro hf x
  by_cases hx : x = w
  · rw [hx]; exact hp
  · rw [(h.alike hx).windowClaims]
    exact hg (h.free hf) x

/-- A window that does not drain afterwards leaves nothing waiting and has no head that fails. -/
theorem Narrow.drains (h : Narrow w s t) (hw : t.windowState w ≠ .drain) : Drains s t := by
  refine ⟨fun p => h.granted (by simp [State.windowClaims, hw]), fun x hx => ?_⟩
  by_cases hxw : x = w
  · rw [hxw]; simp [State.headFails, hw]
  · rw [h.passing hxw]; exact hx

end

/-- As `Drains`, but for the claims on one port, whose slots are still to be granted. -/
structure DrainsBut (p : PortIdx) (s t : State) : Prop where
  granted : ∀ q, q ≠ p → s.granted q → t.granted q
  passing : ∀ w, s.headFails w = false → t.headFails w = false

theorem Drains.but {s t : State} (h : Drains s t) (p : PortIdx) : DrainsBut p s t := ⟨fun q _ => h.granted q, h.passing⟩

theorem DrainsBut.trans {p : PortIdx} {s t u : State} (h : DrainsBut p s t) (k : DrainsBut p t u) : DrainsBut p s u :=
  ⟨fun q hq => k.granted q hq ∘ h.granted q hq, fun w => k.passing w ∘ h.passing w⟩

/-- A change of one window whose head does not fail afterwards concerns the claims on its port alone. -/
theorem Narrow.drainsBut {w : WindowIdx} {s t : State} (h : Narrow w s t) (hw : t.headFails w = false) :
    DrainsBut (t.window w).portIdx s t := by
  refine ⟨fun q hq => h.granted (windowClaims_of_other_port (Ne.symm hq)), fun x hx => ?_⟩
  by_cases hxw : x = w
  · rw [hxw]; exact hw
  · rw [h.passing hxw]; exact hx

/-! ### The examination -/

theorem narrow_setHoldList (w : WindowIdx) (l : List Held) (s : State) : Narrow w s (s.setHoldList w l) :=
  { Narrow.refl w s with holdList := fun x hx => State.holdList_setHoldList_ne s w l x (Ne.symm hx) }

theorem narrow_toReplying (w : WindowIdx) (i : EntryIdx) (st : Status) (data : List Byte) (s : State) :
    Narrow w s (toReplying i st data s) := by
  have side := toReplying_branchSide i st data s
  exact ⟨fun x _ => by rw [State.window, side.windows]; rfl, fun x _ => by rw [State.holdList, toReplying_holdLists]; rfl,
    fun p => by rw [port_toReplying], fun p => by rw [port_toReplying]⟩

theorem narrow_endHeld (w : WindowIdx) (st : Status) (x : Held) (s : State) : Narrow w s (endHeld st x s) := by
  unfold endHeld
  split
  · exact narrow_toReplying ..
  · exact .refl w s

theorem narrow_failRun (w : WindowIdx) (n : Nat) (s : State) : Narrow w s (failRun w n s) := by
  induction n generalizing s with
  | zero => exact .refl w s
  | succ n ih =>
    simp only [failRun]
    split
    · split
      · exact .refl w s
      · split
        · exact .refl w s
        · exact (narrow_setHoldList ..).trans ((narrow_endHeld ..).trans (((unmoved_recordFault ..).narrow w).trans (ih _)))
    · exact .refl w s

theorem narrow_examineHeads (w : WindowIdx) (s : State) : Narrow w s (examineHeads w s) := narrow_failRun ..

/-- An examination that can go through the whole list ends where no head fails (R27). -/
theorem headFails_failRun {w : WindowIdx} {n : Nat} {s : State} (h : (s.holdList w).length ≤ n) :
    (failRun w n s).headFails w = false := by
  induction n generalizing s with
  | zero =>
    have hl : s.holdList w = [] := List.length_eq_zero_iff.mp (Nat.le_zero.mp h)
    simp [failRun, State.headFails, hl]
  | succ n ih =>
    simp only [failRun]
    split
    · split
      · rename_i hl; simp [State.headFails, hl]
      · rename_i x rest hl
        split
        · rename_i hpass; simp [State.headFails, hl, hpass]
        · refine ih ?_
          rw [hl, List.length_cons] at h
          rw [recordFault_holdList, endHeld_holdList, State.holdList_setHoldList_self]
          exact Nat.le_of_succ_le_succ h
    · rename_i hd; simp [State.headFails, hd]

/-- After its examination no head of a window fails (R27). -/
theorem headFails_examineHeads (w : WindowIdx) (s : State) : (examineHeads w s).headFails w = false :=
  headFails_failRun (Nat.le_refl _)

/-- An examination makes no head fail. -/
theorem passing_examineHeads (w : WindowIdx) {x : WindowIdx} {s : State} (h : s.headFails x = false) :
    (examineHeads w s).headFails x = false := by
  by_cases hx : x = w
  · rw [hx]; exact headFails_examineHeads w s
  · rw [(narrow_examineHeads w s).passing hx]; exact h

theorem examineHeads_window (w x : WindowIdx) (s : State) : (examineHeads w s).window x = s.window x := by
  rw [State.window, (examineHeads_branchSide w s).windows]; rfl

/-! ### Grants -/

theorem port_placeEgress (p : PortIdx) (q : Queued) (s : State) (k : PortIdx) :
    (placeEgress p q s).port k = if p = k then (s.port p).withRequest q s.time else s.port k := by
  rw [placeEgress_eq, State.port_setPort]

theorem narrow_placeEgress (w : WindowIdx) (p : PortIdx) (q : Queued) (s : State) : Narrow w s (placeEgress p q s) := by
  have ports : ∀ k, ((placeEgress p q s).port k).state.accepts = (s.port k).state.accepts ∧
      (s.port k).queue.length ≤ ((placeEgress p q s).port k).queue.length := by
    intro k
    rw [port_placeEgress]
    split
    · rename_i hk
      rw [← hk, (withRequest_queue ..).1, List.length_append]
      exact ⟨accepts_withRequest .., Nat.le_add_right ..⟩
    · exact ⟨rfl, Nat.le_refl _⟩
  rw [placeEgress_eq] at ports ⊢
  exact ⟨fun _ _ => rfl, fun _ _ => rfl, fun k => (ports k).1, fun k => (ports k).2⟩

/-- A release changes one window's list and the queue of its port, which grows by one (R30). -/
theorem narrow_release (w : WindowIdx) (s : State) : Narrow w s (release w s) := by
  cases hl : s.holdList w with
  | nil => simp only [release, hl]; exact .refl w s
  | cons x rest =>
    refine (narrow_setHoldList w rest s).trans ?_
    cases hb : x.body with
    | write d => rw [release_write hl hb]; exact narrow_placeEgress ..
    | read i =>
      rw [release_read hl hb]
      exact Narrow.trans (t := setStage i _ (s.setHoldList w rest))
        ⟨fun _ _ => rfl, fun _ _ => rfl, fun _ => rfl, fun _ => Nat.le_refl _⟩ (narrow_placeEgress ..)

theorem queue_release {s : State} {w : WindowIdx} {x : Held} {rest : List Held} (hl : s.holdList w = x :: rest) :
    ((release w s).port (s.window w).portIdx).queue.length = (s.port (s.window w).portIdx).queue.length + 1 := by
  cases hb : x.body with
  | write d =>
    rw [release_write hl hb, port_placeEgress, if_pos rfl, (withRequest_queue ..).1, List.length_append]; rfl
  | read i =>
    rw [release_read hl hb, port_placeEgress, if_pos rfl, (withRequest_queue ..).1, List.length_append]; rfl

theorem release_window (w x : WindowIdx) (s : State) : (release w s).window x = s.window x := by
  rw [State.window, (release_branchSide w s).windows]; rfl

theorem holdList_of_claims {s : State} {p : PortIdx} {w : WindowIdx} (h : s.windowClaims p w = true) :
    ∃ x rest, s.holdList w = x :: rest := by
  cases hl : s.holdList w with
  | nil => simp [State.windowClaims, hl] at h
  | cons x rest => exact ⟨x, rest, rfl⟩

theorem queue_examineHeads (w : WindowIdx) (s : State) (p : PortIdx) :
    ((examineHeads w s).port p).queue = (s.port p).queue := (examineHeads_port w s p).queue

/-- One grant of a port's slot (R34): the claims on the other ports, and the heads, are as before. -/
theorem drainsBut_grant {s : State} {p : PortIdx} {w : WindowIdx} (hc : s.claimingWindow p = some w) :
    DrainsBut p s (examineHeads w (release w s)) := by
  have narrow := (narrow_release w s).trans (narrow_examineHeads w (release w s))
  have h := narrow.drainsBut (headFails_examineHeads w (release w s))
  rwa [examineHeads_window, release_window, port_of_claimingWindow hc] at h

theorem drainsBut_grantLoop (p : PortIdx) (n : Nat) (s : State) : DrainsBut p s (grantLoop p n s) := by
  induction n generalizing s with
  | zero => exact (Drains.refl s).but p
  | succ n ih =>
    simp only [grantLoop]
    split
    · split
      · rename_i w hc
        exact (drainsBut_grant hc).trans (ih _)
      · exact (Drains.refl s).but p
    · exact (Drains.refl s).but p

/-- With a grant for each free slot, no claim is left waiting (R34). -/
theorem granted_grantLoop {p : PortIdx} {n : Nat} {s : State} (h : 8 ≤ (s.port p).queue.length + n) :
    (grantLoop p n s).granted p := by
  induction n generalizing s with
  | zero =>
    intro hf
    have := egress_room hf
    rw [grantLoop] at this
    omega
  | succ n ih =>
    simp only [grantLoop]
    split
    · split
      · rename_i w hc
        refine ih ?_
        obtain ⟨x, rest, hl⟩ := holdList_of_claims (List.find?_some hc)
        have longer := queue_release hl
        rw [port_of_claimingWindow hc] at longer
        rw [queue_examineHeads, longer]
        omega
      · rename_i hc
        intro _ w
        simpa using List.find?_eq_none.mp hc w (List.mem_finRange w)
    · rename_i hf
      exact fun h => absurd h hf

/-- After a port's slots are granted no claim on it waits (R34). -/
theorem granted_grantWindows (p : PortIdx) (s : State) : (grantWindows p s).granted p :=
  granted_grantLoop (by unfold Config.egressSlots; omega)

/-- Granting the slots of the port that was left out completes the rest. -/
theorem DrainsBut.grantWindows {p : PortIdx} {s t : State} (h : DrainsBut p s t) : Drains s (grantWindows p t) := by
  have k := h.trans (drainsBut_grantLoop p (Config.egressSlots - (t.port p).queue.length) t)
  refine ⟨fun q hq => ?_, k.passing⟩
  by_cases hqp : q = p
  · rw [hqp]; exact granted_grantWindows p t
  · exact k.granted q hqp hq

theorem drains_grantWindows (p : PortIdx) (s : State) : Drains s (grantWindows p s) := ((Drains.refl s).but p).grantWindows

theorem drains_foldl_grantWindows (ps : List PortIdx) (s : State) :
    Drains s (ps.foldl (fun s p => grantWindows p s) s) ∧
      ∀ p ∈ ps, (ps.foldl (fun s p => grantWindows p s) s).granted p := by
  induction ps generalizing s with
  | nil => exact ⟨.refl s, fun _ h => absurd h List.not_mem_nil⟩
  | cons p ps ih =>
    obtain ⟨drains, all⟩ := ih (grantWindows p s)
    refine ⟨(drains_grantWindows p s).trans drains, fun q hq => ?_⟩
    rcases List.mem_cons.mp hq with rfl | hq
    · exact drains.granted q (granted_grantWindows q s)
    · exact all q hq

theorem drains_grantAll (s : State) : Drains s (grantAll s) := (drains_foldl_grantWindows _ s).1

/-- After all four arbiters no claim waits (R34). -/
theorem granted_grantAll (s : State) (p : PortIdx) : (grantAll s).granted p :=
  (drains_foldl_grantWindows _ s).2 p (List.mem_finRange p)

/-! ### A port enters DOWN or OFF -/

/-- The examinations of a port's windows: no head of them fails afterwards, and the other ports keep their claims served. -/
theorem drains_foldl_examine (p : PortIdx) (ws : List WindowIdx) (s : State) :
    let t := ws.foldl (fun s w => if (s.window w).portIdx = p then examineHeads w s else s) s
    DrainsBut p s t ∧ (∀ w ∈ ws, (s.window w).portIdx = p → t.headFails w = false) ∧
      (t.port p).state.accepts = (s.port p).state.accepts := by
  induction ws generalizing s with
  | nil => exact ⟨(Drains.refl s).but p, fun _ h => absurd h List.not_mem_nil, rfl⟩
  | cons w ws ih =>
    simp only [List.foldl_cons]
    split
    · rename_i hp
      obtain ⟨but, examined, accepts⟩ := ih (examineHeads w s)
      have first := (narrow_examineHeads w s).drainsBut (headFails_examineHeads w s)
      rw [examineHeads_window, hp] at first
      refine ⟨first.trans but, fun x hx hxp => ?_, accepts.trans ((narrow_examineHeads w s).accepts p)⟩
      rcases List.mem_cons.mp hx with rfl | hx
      · exact but.passing x (headFails_examineHeads x s)
      · exact examined x hx (by rw [examineHeads_window]; exact hxp)
    · rename_i hp
      obtain ⟨but, examined, accepts⟩ := ih s
      refine ⟨but, fun x hx hxp => ?_, accepts⟩
      rcases List.mem_cons.mp hx with rfl | hx
      · exact absurd hxp hp
      · exact examined x hx hxp

theorem windows_flushed (st : PortState) (p : PortIdx) (s : State) :
    (flushed st p s).windows = s.windows ∧ (flushed st p s).holdLists = s.holdLists := by
  have answered : ∀ (l : List EntryIdx) (u : State),
      (l.foldl (fun s i => toReplying i .unclaimed [] s) u).windows = u.windows ∧
        (l.foldl (fun s i => toReplying i .unclaimed [] s) u).holdLists = u.holdLists := by
    intro l
    induction l with
    | nil => exact fun _ => ⟨rfl, rfl⟩
    | cons i l ih =>
      intro u
      obtain ⟨windows, lists⟩ := ih (toReplying i .unclaimed [] u)
      exact ⟨windows.trans (toReplying_branchSide ..).windows, lists.trans (toReplying_holdLists ..)⟩
  exact answered _ _

/-- What a flush changes for draining: its port accepts nothing, and nothing else differs. -/
structure Closes (p : PortIdx) (s t : State) : Prop where
  windows : t.windows = s.windows
  holdLists : t.holdLists = s.holdLists
  closed : (t.port p).state.accepts = false
  ports : ∀ q, q ≠ p → PortSteady (s.port q) (t.port q)

theorem closes_flush {st : PortState} (h : st.accepts = false) (p : PortIdx) (s : State) : Closes p s (flush st p s) := by
  have base : Closes p s (flushed st p s) := by
    obtain ⟨windows, lists⟩ := windows_flushed st p s
    exact ⟨windows, lists, by rw [port_flushed, if_pos rfl]; exact h,
      fun q hq => by rw [port_flushed, if_neg (Ne.symm hq)]; exact .refl _⟩
  rw [flush_eq]
  split
  · exact base
  · have recorded := unmoved_recordFault .flush (.branch p) none none none
      (some (.pair (BitVec.ofNat 8 (s.flushAnswers p).length) (BitVec.ofNat 8 (s.flushWrites p)))) (flushed st p s)
    exact ⟨recorded.windows.trans base.windows, recorded.holdLists.trans base.holdLists,
      (recorded.ports p).accepts.trans base.closed, fun q hq => (base.ports q hq).trans (recorded.ports q)⟩

section
variable {p : PortIdx} {s t : State}

theorem Closes.window (h : Closes p s t) (w : WindowIdx) : t.window w = s.window w := by
  rw [State.window, h.windows]; rfl

theorem Closes.alike (h : Closes p s t) {w : WindowIdx} (hw : (s.window w).portIdx ≠ p) : Alike w s t :=
  ⟨h.window w, by rw [State.holdList, h.holdLists]; rfl, (h.ports _ hw).accepts⟩

/-- The examinations that follow a port's closing leave every window drained that was (R35). -/
theorem Closes.drains (h : Closes p s t) : Drains s (examinePort p t) := by
  obtain ⟨but, examined, accepts⟩ := drains_foldl_examine p (List.finRange 24) t
  have closed : ((examinePort p t).port p).state.accepts = false := accepts.trans h.closed
  refine ⟨fun q hq => ?_, fun w hw => ?_⟩
  · by_cases hqp : q = p
    · intro hf
      rw [hqp] at hf
      rw [egressFree_accepts hf] at closed
      cases closed
    · refine but.granted q hqp (granted_of_alike hq (fun w hw => h.alike ?_) ?_)
      · rw [h.window] at hw; exact hw ▸ hqp
      · rw [egressFree_congr (h.ports q hqp).accepts (h.ports q hqp).queue]; exact id
  · by_cases hwp : (s.window w).portIdx = p
    · exact examined w (List.mem_finRange w) (by rw [h.window]; exact hwp)
    · exact but.passing w ((h.alike hwp).headFails.trans hw)

end

/-- A port's entry to DOWN or OFF (R35, R111). -/
theorem orderly_portDown {st : PortState} (h : st.accepts = false) (cause : Option FaultKind) (p : PortIdx) (s : State) :
    Orderly s (portDown st cause p s) := by
  refine ⟨housed_portDown .., ?_⟩
  unfold portDown
  cases cause with
  | none => exact (closes_flush h p s).drains
  | some k => exact (unmoved_recordFault ..).orderly.drains.trans (closes_flush h p _).drains

theorem orderly_portFail (cause : FaultKind) (p : PortIdx) (s : State) : Orderly s (portFail cause p s) :=
  (orderly_portDown rfl ..).trans (unmoved_modLink ..).orderly

/-! ### A port enters TRAINING -/

/-- A head passes its examination where its range lies inside the window, its kind is permitted, and its port accepts
requests (R17, R28). -/
theorem releaseFailure_eq_none_iff {s : State} {w : WindowIdx} {x : Held} : s.releaseFailure w x = none ↔
    ((s.window w).contains x.address = true ∧ (s.window w).crosses x.address x.length = false) ∧
      (if x.body.isRead then (s.window w).readPermit else (s.window w).writePermit) = true ∧
      (s.port (s.window w).portIdx).state.accepts = true := by
  simp only [State.releaseFailure]
  generalize (s.window w).contains x.address = inside, (s.window w).crosses x.address x.length = crosses,
    (if x.body.isRead then (s.window w).readPermit else (s.window w).writePermit) = permitted,
    (s.port (s.window w).portIdx).state.accepts = accepts
  cases inside <;> cases crosses <;> cases permitted <;> cases accepts <;> simp

/-- A port that opens, or stays open, with its queue as it was leaves all but the claims on it as before. -/
theorem drainsBut_setPort_open {s : State} {p : PortIdx} {b : PortBlock} (hb : b.state.accepts = true) :
    DrainsBut p s (s.setPort p b) := by
  have ports : ∀ q, q ≠ p → (s.setPort p b).port q = s.port q := fun q hq =>
    State.port_setPort_ne s p b q (Ne.symm hq)
  refine ⟨fun q hq h => granted_of_alike h (fun w hw => ⟨rfl, rfl, ?_⟩) ?_, fun w => ?_⟩
  · rw [ports _ (by rw [State.window_setPort] at hw; exact hw ▸ hq)]
  · rw [egressFree_congr (s := s) (by rw [ports q hq]) (by rw [ports q hq])]; exact id
  · rw [headFails_eq_false_iff, headFails_eq_false_iff]
    intro h x hd hl
    obtain ⟨inside, permitted, accepts⟩ := releaseFailure_eq_none_iff.mp (h x hd hl)
    refine releaseFailure_eq_none_iff.mpr ⟨inside, permitted, ?_⟩
    rw [State.port_setPort]
    split
    · exact hb
    · exact accepts

/-- A branch link's entry to TRAINING, after which the draining windows are granted its slots (R34, R87). -/
theorem orderly_openPort (p : PortIdx) (s : State) : Orderly s (grantWindows p (startTraining (.branch p) s)) := by
  refine ⟨(housed_startTraining ..).trans (housed_grantWindows ..), DrainsBut.grantWindows ?_⟩
  refine DrainsBut.trans (t := setTraining (.branch p) s) ?_
    (((unmoved_modLink ..).trans (unmoved_dueSync ..)).orderly.drains.but p)
  exact drainsBut_setPort_open rfl

/-! ### Trunk loss and the tick -/

/-- Trunk loss leaves no claim waiting (R34, log 16). -/
theorem granted_trunkLoss (cause : FaultKind) (s : State) (p : PortIdx) : (trunkLoss cause s).granted p :=
  (unmoved_trunkLoss cause s).orderly.drains.granted p (granted_grantAll _ p)

/-- After the heads of every window are examined none fails (R27). -/
theorem headFails_examineAll (w : WindowIdx) (s : State) : (examineAll s).headFails w = false := by
  have examined : ∀ (ws : List WindowIdx) (u : State),
      (∀ x, u.headFails x = false → (ws.foldl (fun s w => examineHeads w s) u).headFails x = false) ∧
        ∀ x ∈ ws, (ws.foldl (fun s w => examineHeads w s) u).headFails x = false := by
    intro ws
    induction ws with
    | nil => exact fun u => ⟨fun _ h => h, fun _ h => absurd h List.not_mem_nil⟩
    | cons y ws ih =>
      intro u
      obtain ⟨kept, all⟩ := ih (examineHeads y u)
      refine ⟨fun x hx => kept x (passing_examineHeads y hx), fun x hx => ?_⟩
      rcases List.mem_cons.mp hx with rfl | hx
      · exact kept x (headFails_examineHeads x u)
      · exact all x hx
  exact (examined (List.finRange 24) s).2 w (List.mem_finRange w)

/-- The examination of every head and the grants leave every window drained (log 16). -/
theorem drained_examineAll (s : State) : (grantAll (examineAll s)).drained :=
  drained_iff.mpr ⟨granted_grantAll _, fun w => (drains_grantAll _).passing w (headFails_examineAll w s)⟩

theorem orderly_examineAll (s : State) : Orderly s (grantAll (examineAll s)) := by
  obtain ⟨granted, passing⟩ := drained_iff.mp (drained_examineAll s)
  exact ⟨(housed_examineAll s).trans (housed_grantAll _), ⟨fun p _ => granted p, fun w _ => passing w⟩⟩

end Sys2Proof.Machine
end

section
/-! What the management unit and the decoder do to the places of READs (O54) and to the draining of windows (O57). -/

namespace Sys2Proof.Machine

-- The theorems are checked one after the other, which bounds the memory that the check takes.
set_option Elab.async false

/-! ### Window records -/

/-- Empty lists leave nothing to drain. -/
theorem drains_of_empty {s t : State} (h : ∀ w, t.holdList w = []) : Drains s t :=
  ⟨fun p _ _ w => by simp [windowClaims_eq, h w], fun w _ => by simp [headFails_eq, h w]⟩

/-- Ending a list of held requests answers its READs in order. -/
theorem foldl_endHeld (st : Status) (l : List Held) (s : State) :
    l.foldl (fun s h => endHeld st h s) s = (heldReads l).foldl (fun s i => toReplying i st [] s) s := by
  induction l generalizing s with
  | nil => rfl
  | cons h l ih =>
    rw [List.foldl_cons, ih]
    cases hb : h.body <;> simp [heldReads_cons, hb, endHeld]

theorem narrow_foldl_toReplying (w : WindowIdx) (st : Status) (l : List EntryIdx) (s : State) :
    Narrow w s (l.foldl (fun s i => toReplying i st [] s) s) := by
  induction l generalizing s with
  | nil => exact .refl w s
  | cons i l ih => exact (narrow_toReplying ..).trans (ih _)

theorem sentOf_foldl_toReplying_nil {p : PortIdx} (st : Status) (l : List EntryIdx) {s : State} (h : s.sentOf p = []) :
    (l.foldl (fun s i => toReplying i st [] s) s).sentOf p = [] := by
  induction l generalizing s with
  | nil => exact h
  | cons i l ih => exact ih (sentOf_toReplying_nil h i st [])

/-- The whole list of a window ends: its READs go to the reply lane (R20). -/
theorem housed_endList (w : WindowIdx) (st : Status) (s : State) :
    Housed s ((heldReads (s.holdList w)).foldl (fun s i => toReplying i st [] s) (s.setHoldList w [])) := by
  have reads : ∀ x, (s.setHoldList w []).readsAt x = if x = .held w then [] else s.readsAt x := fun x =>
    readsAt_setHoldList ..
  refine ⟨fun hs => placed_foldl_toReplying (hs.nodup (.held w)) (fun i hi => ?_) (fun i hi => ?_) st, fun _ hc => ?_⟩
  · have place := (hs.mem_iff (x := .held w)).mp hi
    refine ⟨live_of_place place (by simp), fun x _ => ?_⟩
    rw [reads]
    split
    · rfl
    · rename_i hx
      rw [(placed_iff.mp hs i).count, once_decide_eq_zero, place]
      exact fun e => hx (Option.some.inj e).symm
  · refine ⟨(placed_iff.mp hs i).named, fun x => ?_⟩
    rw [reads]
    split
    · rename_i hx
      have : (s.entry i).place ≠ some x := fun e => hi (hx ▸ hs.mem_iff.mpr e)
      exact (once_decide_eq_zero.mpr this).symm
    · exact (placed_iff.mp hs i).count x
  · exact closedEmpty_of_steady (s := s) (fun p => by rw [port_foldl_toReplying]; exact .refl _)
      (fun p hp => sentOf_foldl_toReplying_nil st _ hp) hc

theorem housed_setWindow (w : WindowIdx) (r : WindowRecord) (s : State) : Housed s (s.setWindow w r) :=
  ⟨placed_of_readsAt (fun _ => rfl) fun x => by cases x <;> rfl, fun _ => id⟩

theorem narrow_setWindow (w : WindowIdx) (r : WindowRecord) (s : State) : Narrow w s (s.setWindow w r) :=
  { Narrow.refl w s with window := fun x hx => State.window_setWindow_ne s w r x (Ne.symm hx) }

/-- An accepted write of a record (R10, R18 to R22, R32). -/
theorem orderly_applyWindow (w : WindowIdx) (r : WindowRecord) (s : State) : Orderly s (applyWindow w r s) := by
  have housed := housed_setWindow w r s
  have narrow := narrow_setWindow w r s
  have window : (s.setWindow w r).window w = r := State.window_setWindow_self s w r
  by_cases ending : r.enable = false ∨ r.mode = .refuse
  · rw [applyWindow_ending ending, endAllHeld]
    simp only [foldl_endHeld]
    generalize (if r.enable then Status.refused else Status.unclaimed) = st
    have ended : Orderly s ((heldReads ((s.setWindow w r).holdList w)).foldl (fun s i => toReplying i st [] s)
        ((s.setWindow w r).setHoldList w [])) := by
      have whole := narrow.trans ((narrow_setHoldList w [] _).trans (narrow_foldl_toReplying w st
        (heldReads ((s.setWindow w r).holdList w)) _))
      refine ⟨housed.trans (housed_endList w st _), whole.drains fun hd => ?_⟩
      obtain ⟨_, _, hne⟩ := windowState_eq_drain_iff.mp hd
      refine hne ?_
      have lists : ∀ (l : List EntryIdx) (u : State),
          (l.foldl (fun s i => toReplying i st [] s) u).holdList w = u.holdList w := by
        intro l
        induction l with
        | nil => exact fun _ => rfl
        | cons i l ih => exact fun u => (ih _).trans (by rw [State.holdList, toReplying_holdLists]; rfl)
      rw [lists, State.holdList_setHoldList_self]
    split
    · exact ended
    · exact ended.trans (unmoved_recordFault ..).orderly
  · obtain ⟨he, hm⟩ := not_or.mp ending
    rw [Bool.not_eq_false] at he
    cases hmode : r.mode with
    | refuse => exact absurd hmode hm
    | hold =>
      rw [applyWindow_hold he hmode]
      refine ⟨housed, narrow.drains fun hd => ?_⟩
      rw [windowState_of_hold (by rw [window]; exact he) (by rw [window]; exact hmode)] at hd
      cases hd
    | pass =>
      rw [applyWindow_pass he hmode]
      have but := (narrow.trans (narrow_examineHeads w _)).drainsBut (headFails_examineHeads w _)
      rw [examineHeads_window, window] at but
      exact ⟨housed.trans ((housed_examineHeads ..).trans (housed_grantWindows ..)), but.grantWindows⟩

theorem orderly_writeWindow (w : WindowIdx) (data : List Byte) (a : HostAddr) (s : State) :
    Orderly s (writeWindow w data a s) := by
  unfold writeWindow
  split
  · exact orderly_applyWindow ..
  · exact (unmoved_recordFault ..).orderly

/-! ### The cleared router and the blank state -/

/-- A state without READs, requests and open ports to drain keeps everything in order. -/
theorem orderly_of_blank {s t : State} (hl : ∀ w, t.holdList w = []) (he : ∀ i, (t.entry i).live = none)
    (hp : ∀ p, (t.port p).queue = [] ∧ (t.port p).buffer = []) (hs : ∀ p, t.sentOf p = []) (hr : t.replyLane = []) :
    Orderly s t := by
  refine ⟨⟨fun _ => placed_of_free he fun x => ?_, fun _ _ p _ => ⟨(hp p).1, (hp p).2, hs p⟩⟩, drains_of_empty hl⟩
  cases x with
  | held w => rw [State.readsAt, hl]; rfl
  | queued p => rw [State.readsAt, (hp p).1]; rfl
  | sent p => exact hs p
  | lane => exact hr

theorem orderly_clearRouter (s : State) : Orderly s (clearRouter s) := by
  refine orderly_of_blank (fun w => ?_) (fun i => ?_) (fun p => ?_) (fun p => ?_) rfl
  · simp [State.holdList, clearRouter]
  · simp [State.entry, clearRouter]
  · rw [port_clearRouter]; exact ⟨rfl, rfl⟩
  · simp [State.sentOf, clearRouter]

theorem orderly_blank (s : State) (porN : Bool) (strap : BitVec 2) (q : List Instr) : Orderly s (State.blank porN strap q) :=
  orderly_of_blank (holdList_blank porN strap q) (fun i => by rw [entry_blank])
    (fun p => by rw [port_blank]; exact ⟨rfl, rfl⟩) (sentOf_blank porN strap q) rfl

/-! ### Fields -/

theorem orderly_withField {v : Option Nat} {f : Nat → State → State} (h : ∀ n s, Orderly s (f n s)) (s : State) :
    Orderly s (withField v f s) := by
  cases v with
  | none => exact .refl s
  | some n => exact h n s

theorem orderly_writeControl (at' : Nat) (data : List Byte) (s : State) : Orderly s (writeControl at' data s) := by
  have field : ∀ {v : Option Nat} {f : Nat → State → State} (s : State), (∀ n s, Unmoved s (f n s)) →
      Orderly s (withField v f s) := fun s h => orderly_withField (fun n s => (h n s).orderly) s
  unfold writeControl
  refine (field s fun _ _ => {}).trans ((field _ fun _ _ => {}).trans ((field _ fun _ _ => {}).trans
    (orderly_withField (fun n s => ?_) _)))
  split
  · exact orderly_clearRouter s
  · exact .refl s

theorem orderly_clearCounters (at' : Nat) (data : List Byte) (base : Nat) (l : Link) (s : State) :
    Orderly s (clearCounters at' data base l s) := by
  have clear : ∀ field f u, Orderly u (clearCounter at' data field f l u) := fun _ _ u =>
    orderly_withField (fun _ _ => (unmoved_modLink ..).orderly) u
  unfold clearCounters
  exact (clear ..).trans ((clear ..).trans ((clear ..).trans (clear ..)))

/-! ### Branch ports -/

theorem unmoved_setResult (p : PortIdx) (r : CommandResult) (s : State) : Unmoved s (setResult p r s) :=
  unmoved_setPort ⟨rfl, rfl, fun _ h => h⟩

theorem orderly_writeEnable (p : PortIdx) (on : Bool) (s : State) : Orderly s (writeEnable p on s) := by
  unfold writeEnable
  split
  · split
    · exact orderly_openPort p s
    · exact .refl s
  · split
    · exact .refl s
    · exact orderly_portDown rfl none p s

theorem unmoved_writeInterval (p : PortIdx) (v : BitVec 16) (s : State) : Unmoved s (writeInterval p v s) := by
  have written : Unmoved s (s.modPort p fun b => { b with autoDoze := v }) := unmoved_setPort ⟨rfl, rfl, fun _ h => h⟩
  unfold writeInterval
  simp only
  split
  · exact written.trans (unmoved_setPort ⟨rfl, rfl, fun _ h => h⟩)
  · exact written

theorem accepts_setResult {p : PortIdx} {s : State} (h : (s.port p).state.accepts = true) (r : CommandResult) :
    ((setResult p r s).port p).state.accepts = true := ((unmoved_setResult p r s).ports p).accepts.trans h

theorem orderly_commandDoze (p : PortIdx) (s : State) : Orderly s (commandDoze p s) := by
  have result := fun r => (unmoved_setResult p r s).orderly
  unfold commandDoze
  split
  · rename_i up
    simp only
    split
    · exact (result _).trans (unmoved_enterDozeWait (accepts_setResult (accepts_of_up up) _)).orderly
    · refine (result .accepted).trans (Unmoved.orderly ?_)
      exact unmoved_setPort ⟨rfl, rfl, fun _ h => h⟩
  · exact result _

theorem orderly_commandWake (p : PortIdx) (s : State) : Orderly s (commandWake p s) := by
  have result := fun r => (unmoved_setResult p r s).orderly
  unfold commandWake
  split
  · rename_i doze
    exact (result _).trans (unmoved_enterWaking (accepts_setResult (by rw [doze]; rfl) _) _).orderly
  · exact result _

theorem orderly_commandReset (p : PortIdx) (s : State) : Orderly s (commandReset p s) := by
  have result := fun r => (unmoved_setResult p r s).orderly
  unfold commandReset
  split
  · exact result _
  · exact (result _).trans ((orderly_portDown rfl none p _).trans (orderly_openPort p _))

theorem orderly_portCommand (p : PortIdx) (code : Nat) (s : State) : Orderly s (portCommand p code s) := by
  unfold portCommand
  split
  · exact orderly_commandDoze p s
  · split
    · exact orderly_commandWake p s
    · split
      · exact orderly_commandReset p s
      · exact .refl s

theorem orderly_writePort (p : PortIdx) (at' : Nat) (data : List Byte) (s : State) : Orderly s (writePort p at' data s) := by
  have field : ∀ {v : Option Nat} {f : Nat → PortBlock → PortBlock} (s : State), (∀ n b, PortSteady b (f n b)) →
      Orderly s (withField v (fun n s => s.modPort p (f n)) s) := fun s h =>
    orderly_withField (fun n s => (unmoved_setPort (h n _)).orderly) s
  unfold writePort
  refine (orderly_withField (fun _ _ => orderly_writeEnable ..) s).trans ((field _ fun _ _ => ?_).trans
    ((orderly_withField (fun _ _ => (unmoved_writeInterval ..).orderly) _).trans ((field _ fun _ _ => ?_).trans
      ((field _ fun _ _ => ?_).trans ((orderly_clearCounters ..).trans ((field _ fun _ _ => ?_).trans
        (orderly_withField (fun _ _ => orderly_portCommand ..) _)))))))
  all_goals exact ⟨rfl, rfl, fun _ h => h⟩

/-! ### A management request -/

theorem orderly_writeLine (i : LineIdx) (at' : Nat) (data : List Byte) (s : State) :
    Orderly s (writeLine i at' data s) := by
  have field : ∀ {v : Option Nat} {f : Nat → State → EventLine} (s : State),
      Orderly s (withField v (fun n s => s.setLine i (f n s)) s) := fun s =>
    orderly_withField (fun n s => (unmoved_setLine ..).orderly) s
  unfold writeLine
  exact (field s).trans ((field _).trans ((unmoved_serveClaims _).orderly.trans ((field _).trans
    (unmoved_serveClaims _).orderly)))

theorem orderly_writeLogControl (at' : Nat) (data : List Byte) (s : State) : Orderly s (writeLogControl at' data s) := by
  have cleared : ∀ u : State, Unmoved u { u with dropped := 0 } := fun _ => {}
  have popped : ∀ u, Unmoved u (popLog u) := fun _ => {}
  unfold writeLogControl
  refine (orderly_withField (fun _ u => (cleared u).orderly) s).trans (orderly_withField (fun _ u => ?_) _)
  split
  · exact (popped u).orderly
  · exact .refl u

theorem orderly_mgmtForm (t : Option (BitVec 6)) (off : Nat) (a : HostAddr) (s : State) :
    Orderly s (mgmtForm t off a s) := (unmoved_recordFault ..).orderly

/-- What the management unit does with a WRITE (R172 to R174). -/
theorem orderly_manageWrite (a : HostAddr) (data : List Byte) (s : State) : Orderly s (manageWrite a data s) := by
  unfold manageWrite
  simp only
  split
  · rename_i r at' _
    split
    · cases r with
      | window w => exact orderly_writeWindow ..
      | control => exact orderly_writeControl ..
      | port p => exact orderly_writePort ..
      | trunk => exact orderly_clearCounters ..
      | line i => exact orderly_writeLine ..
      | logControl => exact orderly_writeLogControl ..
      | identity | routerTime | view i | logHead => exact .refl s
    · exact orderly_mgmtForm ..
  · exact orderly_mgmtForm ..

theorem orderly_manageRead (t : BitVec 6) (a : HostAddr) (n : Nat) (s : State) : Orderly s (manageRead t a n s) := by
  have placed : ∀ f, Unmoved s (placeGeneral f { s with arbLast := .decoder }) := fun _ => {}
  unfold manageRead
  simp only
  split
  · exact (placed _).orderly
  · exact (placed _).orderly.trans (orderly_mgmtForm ..)

/-! ### Taking a frame -/

theorem unmoved_popHead (f : HostFrame) (s : State) : Unmoved s (popHead f s) := by
  have popped : Unmoved s { s with ingress := s.ingress.tail, decoder := .clear } := {}
  exact popped.trans (unmoved_consume ..)

theorem freeEntry_free {s : State} {i : EntryIdx} (h : s.freeEntry = some i) : (s.entry i).live = none := by
  simpa using List.find?_some h

/-- A FREE entry that is allocated with a place joins that place. -/
theorem placed_allocate {s u : State} {i : EntryIdx} {x : Place} {e : Entry} (hs : s.placed)
    (hi : (s.entry i).live = none) (hn : e.heldNamed = true) (hx : e.place = some x)
    (he : ∀ j, u.entry j = (s.setEntry i e).entry j)
    (hr : ∀ y, u.readsAt y = if y = x then s.readsAt y ++ [i] else s.readsAt y) : u.placed := by
  have entry : (s.setEntry i e).entry i = e := State.entry_setEntry_self s i e
  refine placed_join (s := s.setEntry i e) (fun j hj => (movesOnly_setEntry i e s).entryPlaced hj (placed_iff.mp hs j))
    (fun y => by rw [readsAt_setEntry]; exact hs.count_free hi y) he (fun y => ?_) (by rw [entry]; exact hn)
    (by rw [entry]; exact hx)
  rw [hr, readsAt_setEntry]

theorem orderly_takeFailed (f : HostFrame) (k : FaultKind) (st : Status) (w : Option WindowIdx) (s : State) :
    Orderly s (takeFailed f k st w s) := by
  unfold takeFailed
  refine Orderly.trans ?_ (unmoved_recordFault ..).orderly
  split
  · rename_i t _
    cases hi : s.freeEntry with
    | none => simp only [allocateFree, hi]; exact .refl s
    | some i =>
      rw [allocateFree_eq hi]
      refine ⟨⟨fun hs => ?_, fun _ => id⟩, drains_of_steady rfl rfl fun _ => .refl _⟩
      refine placed_allocate (x := .lane) hs (freeEntry_free hi) rfl rfl (fun _ => rfl) fun y => ?_
      cases y <;> rfl
  · exact .refl s

/-- A request at the tail of the list of a window that holds or drains changes nothing of its draining (R25). -/
theorem drains_appendHeld {s : State} {w : WindowIdx} (h : s.windowState w = .hold ∨ s.windowState w = .drain) (x : Held) :
    Drains s (s.setHoldList w (s.holdList w ++ [x])) := by
  have narrow := narrow_setHoldList w (s.holdList w ++ [x]) s
  rcases h with hold | drain
  · refine narrow.drains fun hd => ?_
    obtain ⟨enabled, pass, _⟩ := windowState_eq_drain_iff.mp hd
    rw [State.window_setHoldList] at enabled pass
    rw [windowState_of_pass enabled pass] at hold
    split at hold <;> cases hold
  · obtain ⟨_, _, hne⟩ := windowState_eq_drain_iff.mp drain
    refine drains_of_alike (fun y => ?_) (fun _ => rfl) (fun _ => Nat.le_refl _)
    by_cases hy : y = w
    · subst hy
      refine ⟨rfl, ?_, rfl⟩
      rw [State.holdList_setHoldList_self]
      cases hl : s.holdList y with
      | nil => exact absurd hl hne
      | cons z rest => rfl
    · exact narrow.alike hy

/-- An entry that is set concerns no window. -/
theorem drains_setEntry (i : EntryIdx) (e : Entry) (s : State) : Drains s (s.setEntry i e) :=
  drains_of_steady rfl rfl fun _ => .refl _

theorem orderly_takeHold {f : HostFrame} {w : WindowIdx} {s : State}
    (h : s.windowState w = .hold ∨ s.windowState w = .drain) : Orderly s (takeHold f w s) := by
  unfold takeHold
  split
  · rename_i t _
    cases hi : s.freeEntry with
    | none => simp only [allocateFree, hi]; exact .refl s
    | some i =>
      rw [allocateFree_eq hi]
      generalize he : (Entry.mk ((s.entry i).epoch + 1)
        (some ⟨t, some w, f.address, f.length, s.time + s.ticketLifetime, .held⟩)) = e
      refine ⟨⟨fun hs => ?_, fun _ => id⟩, (drains_setEntry i e s).trans (drains_appendHeld (s := s.setEntry i e) h _)⟩
      refine placed_allocate (x := .held w) hs (freeEntry_free hi) (by rw [← he]; rfl) (by rw [← he]; rfl) (fun _ => rfl)
        fun y => ?_
      rw [readsAt_setHoldList]
      split
      · rename_i hy; simp [hy, State.readsAt, heldReads_cons]
      · exact readsAt_setEntry ..
  · refine ⟨⟨fun hs => placed_of_readsAt (s := s) (fun _ => rfl) (fun y => ?_) hs, fun _ => id⟩, drains_appendHeld h _⟩
    rw [readsAt_setHoldList]
    split
    · rename_i hy; simp [hy, State.readsAt, heldReads_cons]
    · rfl

/-- A request placed in a queue takes a slot there, and no window changes. -/
theorem drains_placeEgress (p : PortIdx) (q : Queued) (s : State) : Drains s (placeEgress p q s) := by
  have narrow := narrow_placeEgress 0 p q s
  refine drains_of_alike (fun w => ⟨?_, ?_, narrow.accepts _⟩) narrow.accepts narrow.slots <;> rw [placeEgress_eq] <;> rfl

theorem orderly_takeQueue {f : HostFrame} {w : WindowIdx} {s : State}
    (h : s.egressFree (s.window w).portIdx = true) : Orderly s (takeQueue f w s) := by
  have accepts := egressFree_accepts h
  unfold takeQueue
  split
  · rename_i t _
    cases hi : s.freeEntry with
    | none => simp only [allocateFree, hi]; exact .refl s
    | some i =>
      rw [allocateFree_eq hi]
      generalize he : (Entry.mk ((s.entry i).epoch + 1) (some ⟨t, some w, f.address, f.length, s.time + s.ticketLifetime,
        .queued ⟨(s.window w).portIdx, (s.window w).translate f.address⟩⟩)) = e
      refine ⟨⟨fun hs => ?_, fun _ hc => closedEmpty_placeEgress (s := s.setEntry i e) hc accepts _⟩,
        (drains_setEntry i e s).trans (drains_placeEgress ..)⟩
      have entry : (s.setEntry i e).entry i = e := State.entry_setEntry_self s i e
      refine placed_placeEgress_read
        (fun j hj => (movesOnly_setEntry i e s).entryPlaced hj (placed_iff.mp hs j))
        (fun y => by rw [readsAt_setEntry]; exact hs.count_free (freeEntry_free hi) y)
        (by rw [entry, ← he]; rfl) (by rw [entry, ← he]; rfl)
  · exact ⟨⟨fun hs => placed_placeEgress_write hs _ _ _ _, fun _ hc => closedEmpty_placeEgress hc accepts _⟩,
      drains_placeEgress ..⟩

/-- What a frame that is taken needs, in the state in which it is taken. -/
theorem orderly_takeFrame {s : State} {f : HostFrame} {d : Fate} (hc : s.canTake f d = true)
    (hw : ∀ w, d = .toHold w → s.windowState w = .hold ∨ s.windowState w = .drain) : Orderly s (takeFrame f d s) := by
  refine (unmoved_popHead f s).orderly.trans ?_
  show Orderly (popHead f s) (takeFate f d (popHead f s))
  cases d with
  | reuse => exact (unmoved_recordFault ..).orderly
  | failed k st w => exact orderly_takeFailed ..
  | management =>
    simp only [takeFate]
    split
    · exact orderly_manageRead ..
    · exact orderly_manageWrite ..
  | toHold w => exact orderly_takeHold (s := popHead f s) (hw w rfl)
  | toQueue w =>
    simp only [State.canTake, Bool.and_eq_true] at hc
    exact orderly_takeQueue (s := popHead f s) hc.2

theorem unmoved_claimGeneral (f : HostFrame) (d : Fate) (s : State) : Unmoved s (claimGeneral f d s) := by
  have claimed : Unmoved s { s with decoder := { s.decoder with claim := .general } } := {}
  unfold claimGeneral
  split
  · exact claimed.trans (unmoved_serveClaims _)
  · exact .refl s

/-- The window that a frame is held for holds or drains (R15, R47). -/
theorem windowState_of_toHold {s : State} {f : HostFrame} {w : WindowIdx} (h : s.fate f = .toHold w) :
    s.windowState w = .hold ∨ s.windowState w = .drain := by
  rw [fate_eq] at h
  split at h
  · cases h
  · split at h
    · cases h
    · cases hl : s.lookup f.address with
      | none => rw [hl] at h; cases h
      | some x => rw [hl] at h; exact windowFate_toHold h

/-- The decoder's run of frames (R41, R42). -/
theorem orderly_decodeLoop (n : Nat) (fresh : Bool) (s : State) : Orderly s (decodeLoop n fresh s) := by
  induction n generalizing fresh s with
  | zero => exact (unmoved_serveClaims s).orderly
  | succ n ih =>
    simp only [decodeLoop]
    split
    · exact (unmoved_serveClaims s).orderly
    · rename_i f _ _
      have claimed := unmoved_claimGeneral f (s.fate f) s
      refine claimed.orderly.trans ?_
      split
      · rename_i hc
        refine (orderly_takeFrame hc fun w hw => ?_).trans (ih ..)
        rw [windowState_congr (claimed.window w) (congrArg List.head? (claimed.holdList w))]
        exact windowState_of_toHold hw
      · have waits : ∀ u, Unmoved u (waitHead fresh f (s.fate f) u) := fun _ => {}
        exact ((waits _).trans (unmoved_serveClaims _)).orderly

theorem orderly_decodeRun (fresh : Bool) (s : State) : Orderly s (decodeRun fresh s) := orderly_decodeLoop ..

/-- The end of a happening (R53, R141). -/
theorem orderly_settle (s : State) : Orderly s (settle s) := (unmoved_serveClaims s).orderly.trans (orderly_decodeRun ..)

theorem orderly_enqueueTrunk (f : HostFrame) (s : State) : Orderly s (enqueueTrunk f s) := by
  have joined : Unmoved s { s with ingress := s.ingress ++ [f] } := {}
  unfold enqueueTrunk
  simp only
  split
  · exact joined.orderly.trans (orderly_decodeRun ..)
  · exact joined.orderly

end Sys2Proof.Machine
end

section
/-! Every command keeps each READ in its place (O54), and every window drained as far as it can be (O57). -/

namespace Sys2Proof.Machine

-- The theorems are checked one after the other, which bounds the memory that the check takes.
set_option Elab.async false

/-! ### Steps -/

/-- A step keeps every READ in its place and leaves no claim waiting that did not wait; it makes no head fail its
examination but where the trunk enters DOWN (log 16). -/
structure Stepped (s t : State) : Prop where
  housed : Housed s t
  granted : ∀ p, s.granted p → t.granted p
  passing : s.trunkState = .down ∨ t.trunkState ≠ .down → ∀ w, s.headFails w = false → t.headFails w = false

theorem Orderly.stepped {s t : State} (h : Orderly s t) : Stepped s t := ⟨h.housed, h.drains.granted, fun _ => h.drains.passing⟩

theorem Unmoved.stepped {s t : State} (h : Unmoved s t) : Stepped s t := h.orderly.stepped

/-- A loss of the trunk that was not in DOWN (R130). -/
theorem stepped_trunkLoss {s u : State} (h : Unmoved s u) (hs : s.trunkState ≠ .down) (cause : FaultKind) :
    Stepped s (settle (trunkLoss cause u)) := by
  have settled := orderly_settle (trunkLoss cause u)
  have down : (settle (trunkLoss cause u)).trunkState = .down :=
    (settle_takeSide _).trunkState.trans (trunkLoss_branchSide cause u).trunkState
  refine ⟨h.housed.trans ((housed_trunkLoss cause u).trans settled.housed),
    fun p _ => settled.drains.granted p (granted_trunkLoss cause u p), fun hd => ?_⟩
  rcases hd with hd | hd
  · exact absurd hd hs
  · exact absurd down hd

/-- A command that acts with POR_N high alone (R184). -/
theorem stepped_whenPowered {f : State → State} {s : State} (h : Stepped s (f s)) : Stepped s (whenPowered f s) := by
  unfold whenPowered
  split
  · exact h
  · exact (Unmoved.refl s).stepped

/-! ### Deadlines -/

theorem stepped_resendReached (l : Link) (s : State) : Stepped s (resendReached l s) := by
  unfold resendReached
  simp only
  split
  · rename_i h
    rw [Bool.and_eq_true] at h
    split
    · exact (unmoved_dueSync l s).stepped
    · cases l with
      | trunk =>
        refine stepped_trunkLoss (.refl s) (fun hd => ?_) .trainingFail
        have training : s.linkTraining .trunk = true := h.1
        rw [State.linkTraining, hd] at training
        cases training
      | branch p => exact ((orderly_portFail ..).trans (orderly_settle _)).stepped
  · exact (Unmoved.refl s).stepped

theorem orderly_retryReached (l : Link) (s : State) : Orderly s (retryReached l s) := by
  unfold retryReached
  split
  · cases l with
    | trunk => exact (unmoved_startTraining (l := .trunk) trivial).orderly
    | branch p => exact (orderly_openPort p s).trans (orderly_settle _)
  · exact .refl s

theorem closedEmpty_expire {s : State} {i : EntryIdx} (h : s.closedEmpty) (hp : (toReplying i .expired [] s).placed)
    (v : Live) : (expire i v s).closedEmpty :=
  (unmoved_recordFault ..).housed.closed hp (closedEmpty_toReplying h i .expired [])

/-- An entry that stands in no list and no queue can be answered where it stands. -/
theorem answerable_of_place {s : State} (hs : s.placed) {i : EntryIdx}
    (hi : (s.entry i).place = none ∨ ∃ p, (s.entry i).place = some (.sent p))
    (live : ∃ v, (s.entry i).live = some v ∧ v.stage.isReplying = false) : Answerable s i := by
  refine ⟨live, fun x hx => ?_⟩
  rw [(placed_iff.mp hs i).count, once_decide_eq_zero]
  rcases hi with hi | ⟨p, hi⟩ <;> rw [hi]
  · simp
  · exact fun e => hx p (Option.some.inj e).symm

/-- An entry that expires where it stands, in SENT. -/
theorem housed_expire {s : State} {i : EntryIdx} (v : Live)
    (hi : (s.entry i).place = none ∨ ∃ p, (s.entry i).place = some (.sent p))
    (live : ∃ v, (s.entry i).live = some v ∧ v.stage.isReplying = false) : Housed s (expire i v s) := by
  have answered : s.placed → (toReplying i .expired [] s).placed := fun hs =>
    placed_toReplying (answerable_of_place hs hi live) (fun j _ => placed_iff.mp hs j) .expired []
  exact ⟨fun hs => (unmoved_recordFault ..).housed.placed (answered hs),
    fun hs hc => closedEmpty_expire hc (answered hs) v⟩

/-- An entry that expires after its READ left a list or a queue. -/
theorem housed_expire_detached {s t : State} {i : EntryIdx} (v : Live) (hc : s.closedEmpty → t.closedEmpty)
    (hd : s.placed → Detached i s t) : Housed s (expire i v t) := by
  have answered : s.placed → (toReplying i .expired [] t).placed := fun hs => (hd hs).placed_toReplying hs .expired []
  exact ⟨fun hs => (unmoved_recordFault ..).housed.placed (answered hs),
    fun hs h => closedEmpty_expire (hc h) (answered hs) v⟩

theorem narrow_expire (w : WindowIdx) (i : EntryIdx) (v : Live) (s : State) : Narrow w s (expire i v s) :=
  (narrow_toReplying ..).trans ((unmoved_recordFault ..).narrow w)

/-- An answer concerns no window. -/
theorem drains_toReplying (i : EntryIdx) (st : Status) (data : List Byte) (s : State) :
    Drains s (toReplying i st data s) :=
  drains_of_steady (toReplying_branchSide ..).windows (toReplying_holdLists ..)
    fun p => by rw [port_toReplying]; exact .refl _

theorem drains_expire (i : EntryIdx) (v : Live) (s : State) : Drains s (expire i v s) :=
  (drains_toReplying ..).trans (unmoved_recordFault ..).orderly.drains

/-- A READ that leaves a queue frees a slot of its port alone. -/
theorem drainsBut_removeQueued (p : PortIdx) (i : EntryIdx) (s : State) : DrainsBut p s (removeQueued p i s) := by
  have ports : ∀ q, q ≠ p → (removeQueued p i s).port q = s.port q := fun q hq =>
    State.port_setPort_ne s p _ q (Ne.symm hq)
  have accepts : ∀ q, ((removeQueued p i s).port q).state.accepts = (s.port q).state.accepts := by
    intro q
    by_cases hq : q = p
    · subst hq
      rw [removeQueued, State.modPort_eq, State.port_setPort_self]
    · rw [ports q hq]
  have alike : ∀ w, Alike w s (removeQueued p i s) := fun w => ⟨rfl, rfl, accepts _⟩
  refine ⟨fun q hq h => granted_of_alike h (fun w _ => alike w) ?_, fun w h => (alike w).headFails.trans h⟩
  rw [egressFree_congr (s := s) (accepts q) (by rw [ports q hq])]
  exact id

/-- A READ in HELD that expires leaves its list, whose next head is examined and whose port's slots are granted (R36). -/
theorem orderly_expireHeld {s : State} {i : EntryIdx} {v : Live} {w : WindowIdx} (hv : (s.entry i).live = some v)
    (hst : v.stage = .held) (hw : v.window = some w) :
    let u := examineHeads w (expire i v (removeHeld w i s))
    Orderly s (grantWindows (u.window w).portIdx u) := by
  intro u
  have place : (s.entry i).place = some (.held w) := by rw [place_of_live hv, Live.place, hst, hw]; rfl
  have expired : Housed s (expire i v (removeHeld w i s)) :=
    housed_expire_detached v id fun hs => detached_removeHeld hs place
  have narrow : Narrow w s u := (narrow_setHoldList w _ s).trans ((narrow_expire ..).trans (narrow_examineHeads ..))
  exact ⟨expired.trans ((housed_examineHeads ..).trans (housed_grantWindows ..)),
    (narrow.drainsBut (headFails_examineHeads ..)).grantWindows⟩

/-- A READ in QUEUED that expires leaves its queue, whose slot is granted (R72, R108). -/
theorem orderly_expireQueued {s : State} {i : EntryIdx} {v : Live} {r : Route} (hv : (s.entry i).live = some v)
    (hst : v.stage = .queued r) : Orderly s (grantWindows r.port (expire i v (removeQueued r.port i s))) := by
  have place : (s.entry i).place = some (.queued r.port) := by rw [place_of_live hv, Live.place, hst]
  have closed : s.closedEmpty → (removeQueued r.port i s).closedEmpty := by
    intro hc p hp
    rw [removeQueued, State.modPort_eq, State.port_setPort] at hp ⊢
    split at hp
    · rename_i he
      obtain ⟨queue, buffer, sent⟩ := hc r.port hp
      rw [if_pos he]
      exact ⟨by simp [queue], buffer, he ▸ sent⟩
    · rename_i he
      rw [if_neg he]
      exact hc p hp
  have expired : Housed s (expire i v (removeQueued r.port i s)) :=
    housed_expire_detached v closed fun hs => detached_removeQueued hs place
  exact ⟨expired.trans (housed_grantWindows ..),
    ((drainsBut_removeQueued r.port i s).trans ((drains_expire ..).but _)).grantWindows⟩

theorem orderly_ticketReached (i : EntryIdx) (s : State) : Orderly s (ticketReached i s) := by
  unfold ticketReached
  split
  · exact .refl s
  · rename_i v hv
    split
    · split
      · rename_i hst
        split
        · rename_i w hw
          exact (orderly_expireHeld hv hst hw).trans (orderly_settle _)
        · rename_i hw
          have nowhere : (s.entry i).place = none := by rw [place_of_live hv, Live.place, hst, hw]; rfl
          have expired : Orderly s (expire i v s) :=
            ⟨housed_expire v (.inl nowhere) ⟨v, hv, by rw [hst]; rfl⟩, drains_expire i v s⟩
          exact expired.trans (orderly_settle _)
      · rename_i r hst
        exact (orderly_expireQueued hv hst).trans ((unmoved_refreshIdle ..).orderly.trans (orderly_settle _))
      · rename_i r hst
        have place : (s.entry i).place = some (.sent r.port) := by rw [place_of_live hv, Live.place, hst]
        have expired : Orderly s (expire i v s) :=
          ⟨housed_expire v (.inr ⟨_, place⟩) ⟨v, hv, by rw [hst]; rfl⟩, drains_expire i v s⟩
        exact expired.trans ((unmoved_refreshIdle ..).orderly.trans (orderly_settle _))
      · exact .refl s
    · exact .refl s

theorem orderly_headWaitReached (s : State) : Orderly s (headWaitReached s) := by
  unfold headWaitReached
  split
  · exact .refl s
  · split
    · exact ((unmoved_popHead ..).trans (unmoved_recordFault ..)).orderly.trans (orderly_decodeRun ..)
    · exact .refl s

theorem unmoved_answerReached (p : PortIdx) (s : State) : Unmoved s (answerReached p s) := by
  unfold answerReached
  simp only
  split
  · rename_i h
    refine Unmoved.trans ?_ ((unmoved_recordFault ..).trans (unmoved_refreshIdle ..))
    exact unmoved_setPort (portSteady_of_accepts (by rw [h.1]; rfl) rfl rfl)
  · exact .refl s

theorem orderly_wakeReached (p : PortIdx) (s : State) : Orderly s (wakeReached p s) := by
  unfold wakeReached
  simp only
  split
  · exact (orderly_portFail ..).trans (orderly_settle _)
  · exact .refl s

theorem unmoved_idleReached (p : PortIdx) (s : State) : Unmoved s (idleReached p s) := by
  unfold idleReached
  simp only
  split
  · rename_i h; exact unmoved_enterDozeWait (accepts_of_up h.1)
  · exact .refl s

/-! ### Link frames -/

/-- A frame that arrives keeps order where what an open link does with it keeps it. -/
theorem orderly_receive {training live doze waking : State → State} {l : Link} (size : Nat)
    (ht : ∀ u, u.linkOpen l → Orderly u (training u)) (hl : ∀ u, u.linkOpen l → Orderly u (live u))
    (hd : ∀ u, u.linkOpen l → Orderly u (doze u)) (hw : ∀ u, u.linkOpen l → Orderly u (waking u)) (s : State) :
    Orderly s (receive l size training live doze waking s) := by
  have counted : Unmoved s (s.modLink l LinkEnd.countIn) := unmoved_modLink ..
  have opened : s.rxPhase l ≠ .deaf → (s.modLink l LinkEnd.countIn).linkOpen l := fun h =>
    counted.linkOpen (linkOpen_of_rxPhase h)
  unfold receive
  split
  · simp only
    split
    · exact .refl s
    · rename_i h; exact counted.orderly.trans (ht _ (opened (by rw [h]; decide)))
    · rename_i h; exact counted.orderly.trans (hl _ (opened (by rw [h]; decide)))
    · rename_i h; exact counted.orderly.trans (hd _ (opened (by rw [h]; decide)))
    · rename_i h; exact counted.orderly.trans (hw _ (opened (by rw [h]; decide)))
  · exact (unmoved_crcFail l s).orderly

theorem unmoved_setUp {l : Link} {s : State} (h : s.linkOpen l) : Unmoved s (setUp l s) := by
  cases l with
  | trunk => exact {}
  | branch p => exact unmoved_setPort (portSteady_of_accepts h rfl rfl)

theorem orderly_afterUp (l : Link) (s : State) : Orderly s (afterUp l s) := by
  cases l with
  | trunk => exact orderly_settle s
  | branch p => exact (unmoved_refreshIdle p s).orderly

theorem orderly_syncToUp {l : Link} {s : State} (h : s.linkOpen l) (a b : Byte) : Orderly s (syncToUp l a b s) :=
  ((unmoved_setUp h).trans (unmoved_modLink ..)).orderly.trans (orderly_afterUp ..)

theorem orderly_syncWhenLive {l : Link} {s : State} (h : s.linkOpen l) (a b : Byte) :
    Orderly s (syncWhenLive l a b s) := by
  unfold syncWhenLive
  split
  · exact (unmoved_modLink ..).orderly
  · split
    · exact (unmoved_modLink ..).orderly
    · exact orderly_syncToUp h a b

section
variable {l : Link} {u : State}

theorem orderly_discardFrame (_ : u.linkOpen l) : Orderly u (discardFrame l u) := (unmoved_discardFrame l u).orderly

theorem orderly_frameInvalid (k : Byte) (c : Option CreditClass) (_ : u.linkOpen l) :
    Orderly u (frameInvalid l k c u) := (unmoved_frameInvalid ..).orderly

end

theorem orderly_receiveSync (l : Link) (size : Nat) (a b : Byte) (s : State) :
    Orderly s (receiveSync l size a b s) := by
  unfold receiveSync
  refine orderly_receive size (fun u h => ?_) (fun u h => ?_) (fun u h => ?_) (fun u h => ?_) s <;> split
  · exact orderly_syncToUp h a b
  · exact orderly_discardFrame h
  · exact orderly_syncWhenLive h a b
  · exact orderly_frameInvalid _ _ h
  · exact orderly_syncToUp h a b
  · exact orderly_frameInvalid _ _ h
  · exact orderly_syncToUp h a b
  · exact orderly_discardFrame h

theorem orderly_receiveSyncAck (l : Link) (size : Nat) (a b : Byte) (s : State) :
    Orderly s (receiveSyncAck l size a b s) := by
  unfold receiveSyncAck
  refine orderly_receive size (fun u h => ?_) (fun u h => ?_) (fun u => orderly_frameInvalid 0x90 none)
    (fun u => orderly_discardFrame) s <;> split
  · exact ((unmoved_setUp h).trans (unmoved_modLink ..)).orderly.trans (orderly_afterUp ..)
  · exact orderly_discardFrame h
  · exact .refl u
  · exact orderly_frameInvalid _ _ h

theorem orderly_receiveCredit (l : Link) (size : Nat) (a b : Byte) (s : State) :
    Orderly s (receiveCredit l size a b s) := by
  unfold receiveCredit
  refine orderly_receive size (fun u => orderly_discardFrame) (fun u h => ?_) (fun u => orderly_frameInvalid 0xA0 none)
    (fun u => orderly_discardFrame) s
  split
  · exact (unmoved_modLink ..).orderly
  · exact orderly_frameInvalid _ _ h

theorem orderly_trunkReset (s : State) : Orderly s (trunkReset s) := by
  have based : Unmoved (clearRouter s) (dropIngress { clearRouter s with apertureBase := Config.strapDefault s.strapId }) := {}
  exact (orderly_clearRouter s).trans (based.trans (unmoved_startTraining (l := .trunk) trivial)).orderly

theorem orderly_receiveRequest (r : TrunkRequest) (s : State) : Orderly s (receiveRequest r s) := by
  refine orderly_receive _ (fun u => orderly_discardFrame) (fun u h => ?_) (fun u _ => .refl u) (fun u _ => .refl u) s
  unfold acceptRequest
  split
  · split
    · exact orderly_enqueueTrunk ..
    · exact (unmoved_creditOverrun ..).orderly
  · exact orderly_frameInvalid _ _ h

/-! ### Module frames -/

/-- A module WRITE enters the buffer of a port that is not closed (R123). -/
theorem orderly_bufferWrite {p : PortIdx} {s : State} (h : s.linkOpen (.branch p)) (w : UpWrite) :
    Orderly s (bufferWrite p w s) := by
  refine Orderly.trans (Unmoved.orderly ?_) ((unmoved_refreshIdle ..).orderly.trans (orderly_settle _))
  exact unmoved_setPort (portSteady_of_accepts h h rfl)

theorem unmoved_refuseUpWrite (k : FaultKind) (p : PortIdx) (n : Nat) (a : ModuleAddr) (s : State) :
    Unmoved s (refuseUpWrite k p n a s) := (unmoved_consume ..).trans (unmoved_recordFault ..)

theorem orderly_acceptUpWrite {p : PortIdx} {s : State} (h : s.linkOpen (.branch p)) (n : Nat) (a : ModuleAddr)
    (data : List Byte) : Orderly s (acceptUpWrite p n a data s) := by
  unfold acceptUpWrite
  simp only
  split
  · exact (unmoved_creditOverrun ..).orderly
  · split
    · exact (unmoved_refuseUpWrite ..).orderly
    · split
      · exact orderly_bufferWrite h _
      · exact (unmoved_refuseUpWrite ..).orderly

/-- The entry that a RESULT matches is in SENT (R69). -/
theorem sent_of_matchResult {s : State} {p : PortIdx} {ticket : Byte} {i : EntryIdx} {v : Live}
    (h : s.matchResult p ticket = some (i, v)) : (s.entry i).live = some v ∧ ∃ r, v.stage = .sent r := by
  unfold State.matchResult at h
  simp only at h
  split at h
  · rename_i u hu
    split at h
    · rename_i r hr
      split at h
      · obtain ⟨rfl, rfl⟩ := Prod.mk.inj (Option.some.inj h)
        exact ⟨hu, r, hr⟩
      · cases h
    · cases h
  · cases h

/-- An entry in SENT is answered where it stands. -/
theorem orderly_answerSent {s : State} {i : EntryIdx} {v : Live} (hv : (s.entry i).live = some v)
    (hst : ∃ r, v.stage = .sent r) (st : Status) (data : List Byte) : Orderly s (toReplying i st data s) := by
  obtain ⟨r, hr⟩ := hst
  have place : (s.entry i).place = some (.sent r.port) := by rw [place_of_live hv, Live.place, hr]
  exact ⟨⟨fun hs => placed_toReplying (answerable_of_place hs (.inr ⟨_, place⟩) ⟨v, hv, by rw [hr]; rfl⟩)
      (fun j _ => placed_iff.mp hs j) st data,
    fun _ hc => closedEmpty_toReplying hc i st data⟩, drains_toReplying ..⟩

theorem orderly_matchedResult {s : State} {i : EntryIdx} {v : Live} (hv : (s.entry i).live = some v)
    (hst : ∃ r, v.stage = .sent r) (status : BitVec 3) (count : Byte) (data : List Byte) :
    Orderly s (matchedResult i v status count data s) := by
  have answer := orderly_answerSent hv hst
  unfold matchedResult
  split
  · split
    · exact answer ..
    · exact (answer ..).trans (unmoved_recordFault ..).orderly
  · exact answer ..

theorem orderly_acceptResult (p : PortIdx) (size : Nat) (status : BitVec 3) (ticket count : Byte) (data : List Byte)
    (s : State) : Orderly s (acceptResult p size status ticket count data s) := by
  unfold acceptResult
  split
  · refine (unmoved_consume (.branch p) .b s).orderly.trans ?_
    simp only
    split
    · rename_i i v hm
      obtain ⟨hv, hst⟩ := sent_of_matchResult hm
      exact (orderly_matchedResult hv hst ..).trans (unmoved_refreshIdle ..).orderly
    · refine Orderly.trans (Unmoved.orderly ?_) (unmoved_recordFault ..).orderly
      exact unmoved_setPort ⟨rfl, rfl, fun _ h => h⟩
  · exact (unmoved_frameInvalid ..).orderly

theorem unmoved_acceptDozeAck {p : PortIdx} {s : State} (h : s.linkOpen (.branch p)) : Unmoved s (acceptDozeAck p s) := by
  unfold acceptDozeAck
  simp only
  split
  · exact unmoved_setPort ⟨rfl, rfl, fun _ h => h⟩
  · split
    · exact unmoved_setPort (portSteady_of_accepts h rfl rfl)
    · exact unmoved_enterWaking h _

/-! ### Signals and the tick -/

theorem stepped_loseSignal (l : Link) (s : State) : Stepped s (loseSignal l s) := by
  have gone : Unmoved s (s.modLink l fun e => { e with signal := false }) := unmoved_modLink ..
  unfold loseSignal
  split
  · cases l with
    | trunk =>
      simp only
      split
      · exact gone.stepped
      · rename_i h; exact stepped_trunkLoss gone (by rw [h]; decide) .signalLost
      · rename_i h; exact stepped_trunkLoss gone (by rw [h]; decide) .signalLost
    | branch p =>
      simp only
      split
      · exact (gone.orderly.trans ((orderly_portFail ..).trans (orderly_settle _))).stepped
      · exact gone.stepped
  · exact (Unmoved.refl s).stepped

theorem unmoved_setTime (s : State) : Unmoved s { s with time := s.time + 1 } := {}

theorem orderly_tick (s : State) : Orderly s (tick s) := by
  unfold tick
  simp only
  split
  · exact (unmoved_setTime s).orderly.trans ((orderly_examineAll _).trans (orderly_settle _))
  · exact (unmoved_setTime s).orderly

/-- The tick leaves every window drained (log 16). -/
theorem drained_tick {s : State} (h : s.slotsGranted) : (tick s).drained := by
  unfold tick
  simp only
  split
  · obtain ⟨granted, passing⟩ := drained_iff.mp (drained_examineAll { s with time := s.time + 1 })
    have settled := (orderly_settle (grantAll (examineAll { s with time := s.time + 1 }))).drains
    exact drained_iff.mpr ⟨fun p => settled.granted p (granted p), fun w => settled.passing w (passing w)⟩
  · rename_i none
    have passing : ∀ w, s.headFails w = false := by simpa using none
    have same := (unmoved_setTime s).orderly.drains
    exact drained_iff.mpr ⟨fun p => same.granted p (slotsGranted_iff.mp h p), fun w => same.passing w (passing w)⟩

/-! ### Transmissions -/

/-- The head of a queue is taken by the transmitter: a READ goes from the queue to the sent order of its port (R68). -/
theorem housed_markSent {p : PortIdx} {s : State} {q : Queued} {b : PortBlock} (hq : (s.port p).queue = q :: b.queue) (ha : b.state = .up) :
    Housed s (markSent p q.body (s.setPort p b)) := by
  have accepts : b.state.accepts = true := accepts_of_up ha
  cases hb : q.body with
  | write d =>
    refine ⟨fun hs => placed_of_readsAt (s := s) (fun _ => rfl) (fun x => ?_) hs, fun _ hc => closedEmpty_setPort hc p accepts⟩
    rw [markSent, readsAt_setPort]
    split
    · rename_i hx; simp [hx, State.readsAt, hq, queuedReads_cons, hb]
    · rfl
  | read i =>
    refine ⟨fun hs => ?_, fun _ hc => ?_⟩
    · have left := detached_queueHead (b := b) hs hq hb
      have place : (s.entry i).place = some (.queued p) :=
        hs.mem_iff.mp (by simp [State.readsAt, hq, queuedReads_cons, hb])
      obtain ⟨v, hv, _⟩ := live_of_place place (by simp)
      have stage : ∃ r, v.stage = .queued r ∧ r.port = p := by
        rw [place_of_live hv, Live.place] at place
        cases hst : v.stage with
        | held => rw [hst] at place; simp at place
        | queued r => rw [hst] at place; exact ⟨r, rfl, by simpa using place⟩
        | sent r | replying r st d => rw [hst] at place; simp at place
      obtain ⟨r, hst, hr⟩ := stage
      have entry : ((s.setPort p b).entry i).live = some v := hv
      simp only [markSent, entry, hst]
      rw [setStage_live entry]
      generalize he : (Entry.mk ((s.setPort p b).entry i).epoch (some { v with stage := .sent r })) = e
      have moved := left.others.trans (movesOnly_setEntry i e _)
      have self : ((s.setPort p b).setEntry i e).entry i = e := State.entry_setEntry_self _ i e
      refine placed_join (x := .sent p) (fun j hj => moved.entryPlaced hj (placed_iff.mp hs j))
        (fun y => by rw [readsAt_setEntry]; exact left.nowhere y) (fun _ => rfl) (fun y => ?_)
        (by rw [self, ← he]; rfl) (by rw [self, ← he, ← hr]; rfl)
      rw [readsAt_setSentOf]
      split
      · rename_i hy; simp [hy, State.readsAt]
      · rfl
    · have closed : (s.setPort p b).closedEmpty := closedEmpty_setPort hc p accepts
      unfold markSent
      simp only
      split
      · split
        · intro k hk
          have hne : p ≠ k := by
            rintro rfl
            rw [State.port_setSentOf] at hk
            rw [show (setStage i (.sent _) (s.setPort p b)).port p = b from State.port_setPort_self s p b, accepts] at hk
            cases hk
          obtain ⟨queue, buffer, sent⟩ := closed k hk
          exact ⟨queue, buffer, (State.sentOf_setSentOf_ne _ p _ k hne).trans sent⟩
        · exact closed
      · exact closed

/-- What the taking of a queue's head leaves of draining: the slot that it frees (R34). -/
theorem drainsBut_markSent {p : PortIdx} {s : State} {b : PortBlock} (ha : b.state = .up) (q : ReqBody) :
    DrainsBut p s (markSent p q (s.setPort p b)) := by
  refine (drainsBut_setPort_open (accepts_of_up ha)).trans (Drains.but ?_ p)
  have sent : ∀ i r u, Drains u ((setStage i (.sent r) u).setSentOf p (u.sentOf p ++ [i])) := fun i r u =>
    drains_of_steady rfl rfl fun _ => .refl _
  unfold markSent
  split
  · exact .refl _
  · split
    · split
      · exact sent ..
      · exact .refl _
    · exact .refl _

/-- The head that the transmitter can take stands first in the queue of a port in UP (R109). -/
theorem head_of_egressReady {s : State} {p : PortIdx} {q : Queued} (h : s.egressReady p = some q) :
    (s.port p).state = .up ∧ ∃ rest, (s.port p).queue = q :: rest := by
  unfold State.egressReady at h
  simp only at h
  split at h
  · cases h
  · rename_i x rest hq
    split at h
    · rename_i ready
      obtain rfl := Option.some.inj h
      exact ⟨ready.1, rest, hq⟩
    · cases h

theorem orderly_sendEgress {p : PortIdx} {q : Queued} {s : State} (h : s.egressReady p = some q) :
    Orderly s (sendEgress p q s) := by
  obtain ⟨up, rest, hq⟩ := head_of_egressReady h
  let b := { s.port p with
    queue := (s.port p).queue.tail, link := ((s.port p).link.transmit (s.requestTx q)).countSent q.body.cls }
  have queue : (s.port p).queue = q :: b.queue := by
    show _ = q :: (s.port p).queue.tail
    rw [hq]; rfl
  have sent : Orderly s (grantWindows p (markSent p q.body (s.setPort p b))) :=
    ⟨(housed_markSent queue up).trans (housed_grantWindows ..), (drainsBut_markSent (b := b) up q.body).grantWindows⟩
  exact sent.trans ((unmoved_refreshIdle ..).orderly.trans (orderly_settle _))

/-- The head of the reply lane is sent, and its entry becomes FREE (R76). -/
theorem orderly_sendReply (s : State) : Orderly s (sendReply s) := by
  unfold sendReply
  split
  · exact .refl s
  · rename_i i rest hr
    refine Orderly.trans ?_ (orderly_settle _)
    refine ⟨⟨fun hs => ?_, fun _ => id⟩, drains_of_steady rfl rfl fun _ => .refl _⟩
    have lane : (s.entry i).place = some .lane :=
      (hs.mem_iff (x := .lane)).mp (by rw [State.readsAt, hr]; exact List.mem_cons_self)
    obtain ⟨gone, kept⟩ := count_tail_of_nodup hr (hs.nodup .lane)
    refine placed_iff.mpr fun j => ?_
    generalize hu : ({ s.setEntry i { s.entry i with live := none } with
      replyLane := rest, laneLast := .reply, trunk := (s.trunk.transmit (s.answerOf i)).countSent .a } : State) = u
    have entry : u.entry j = (s.setEntry i { s.entry i with live := none }).entry j := by rw [← hu]; rfl
    have reads : ∀ x, u.readsAt x = if x = .lane then rest else s.readsAt x := by
      intro x; rw [← hu]; cases x <;> rfl
    by_cases hj : j = i
    · subst hj
      rw [State.entry_setEntry_self] at entry
      refine ⟨by rw [entry]; rfl, fun x => ?_⟩
      have none : (u.readsAt x).count j = 0 := by
        rw [reads]
        split
        · exact gone
        · rename_i hx
          rw [(placed_iff.mp hs j).count, once_decide_eq_zero, lane]
          exact fun e => hx (Option.some.inj e).symm
      rw [none, entry]
      rfl
    · rw [State.entry_setEntry_ne _ _ _ _ (Ne.symm hj)] at entry
      refine ⟨by rw [entry]; exact (placed_iff.mp hs j).named, fun x => ?_⟩
      rw [entry, ← (placed_iff.mp hs j).count, reads]
      split
      · rename_i hx; rw [hx]; exact kept j hj
      · rfl

theorem orderly_sendGeneral (s : State) : Orderly s (sendGeneral s) := by
  unfold sendGeneral
  split
  · exact .refl s
  · refine Orderly.trans (Unmoved.orderly ?_) (orderly_settle _)
    exact {}

/-- A transmission that is taken where it is ready, and else leaves the state. -/
theorem stepped_ifReady {s : State} {ready : Prop} [Decidable ready] {sent : State} (h : Orderly s sent) :
    Stepped s (if ready then sent else s) := by
  split
  · exact h.stepped
  · exact (Unmoved.refl s).stepped

/-! ### Every command -/

/-- Every command keeps each READ in its place and the windows drained. -/
theorem stepped_exec {c : Instr} {s t : State} (h : exec c s = .next t) : Stepped s t := by
  suffices all : ∃ u, exec c s = .next u ∧ Stepped s u by
    obtain ⟨u, hu, stepped⟩ := all
    rw [h] at hu
    obtain rfl := Host.Outcome.next.inj hu
    exact stepped
  cases c with
  | porAssert => exact ⟨_, rfl, (orderly_blank ..).stepped⟩
  | porRelease id1 id0 =>
    exact ⟨_, rfl, ((orderly_blank s true (strapOf id1 id0) s.pending).trans
      (unmoved_startTraining (l := .trunk) trivial).orderly).stepped⟩
  | signalLost l => exact ⟨_, rfl, stepped_whenPowered (stepped_loseSignal l s)⟩
  | crcError l => exact ⟨_, rfl, (unmoved_crcFail l s).stepped⟩
  | trunkIngressFrame f => exact ⟨_, rfl, (orderly_receiveRequest f s).stepped⟩
  | trunkReset size =>
    refine ⟨_, rfl, (orderly_receive size (fun u => orderly_discardFrame) (fun u h => ?_) (fun u _ => .refl u)
      (fun u _ => .refl u) s).stepped⟩
    split
    · exact orderly_trunkReset u
    · exact orderly_frameInvalid _ _ h
  | syncReceived l size a b => exact ⟨_, rfl, (orderly_receiveSync ..).stepped⟩
  | syncAckReceived l size a b => exact ⟨_, rfl, (orderly_receiveSyncAck ..).stepped⟩
  | creditReceived l size a b => exact ⟨_, rfl, (orderly_receiveCredit ..).stepped⟩
  | moduleWriteArrival p size n a data =>
    refine ⟨_, rfl, (orderly_receive size (fun u => orderly_discardFrame) (fun u h => ?_)
      (fun u => orderly_frameInvalid _ _) (fun u => orderly_discardFrame) s).stepped⟩
    split
    · exact orderly_acceptUpWrite h ..
    · exact orderly_frameInvalid _ _ h
  | branchResultArrival p size status ticket count data =>
    exact ⟨_, rfl, (orderly_receive size (fun u => orderly_discardFrame)
      (fun u _ => orderly_acceptResult p size status ticket count data u) (fun u => orderly_frameInvalid _ _)
      (fun u => orderly_discardFrame) s).stepped⟩
  | eventFrame p size code =>
    refine ⟨_, rfl, (orderly_receive size (fun u => orderly_discardFrame) (fun u h => ?_)
      (fun u => orderly_frameInvalid _ _) (fun u => orderly_discardFrame) s).stepped⟩
    split
    · exact (unmoved_arrival ..).orderly
    · exact orderly_frameInvalid _ _ h
  | dozeAck p size =>
    refine ⟨_, rfl, (orderly_receive size (fun u => orderly_discardFrame) (fun u h => ?_)
      (fun u => orderly_frameInvalid _ _) (fun u => orderly_discardFrame) s).stepped⟩
    split
    · exact (unmoved_acceptDozeAck h).orderly
    · exact orderly_frameInvalid _ _ h
  | moduleWake p size =>
    refine ⟨_, rfl, (orderly_receive size (fun u => orderly_discardFrame) (fun u h => ?_) (fun u h => ?_)
      (fun u => orderly_discardFrame) s).stepped⟩ <;> split
    · exact .refl u
    · exact orderly_frameInvalid _ _ h
    · exact (unmoved_enterWaking h _).orderly
    · exact orderly_frameInvalid _ _ h
  | resendDeadline l => exact ⟨_, rfl, stepped_whenPowered (stepped_resendReached l s)⟩
  | retryDeadline l => exact ⟨_, rfl, stepped_whenPowered (orderly_retryReached l s).stepped⟩
  | ticketDeadline i => exact ⟨_, rfl, stepped_whenPowered (orderly_ticketReached i s).stepped⟩
  | headWaitDeadline => exact ⟨_, rfl, stepped_whenPowered (orderly_headWaitReached s).stepped⟩
  | answerDeadline p => exact ⟨_, rfl, stepped_whenPowered (unmoved_answerReached p s).stepped⟩
  | wakeDeadline p => exact ⟨_, rfl, stepped_whenPowered (orderly_wakeReached p s).stepped⟩
  | idleDeadline p => exact ⟨_, rfl, stepped_whenPowered (unmoved_idleReached p s).stepped⟩
  | syncTransmit l => exact ⟨_, rfl, stepped_whenPowered (stepped_ifReady (unmoved_modLink ..).orderly)⟩
  | syncAckTransmit l => exact ⟨_, rfl, stepped_whenPowered (stepped_ifReady (unmoved_modLink ..).orderly)⟩
  | creditTransmit l => exact ⟨_, rfl, stepped_whenPowered (stepped_ifReady (unmoved_modLink ..).orderly)⟩
  | dozeReqTransmit p =>
    refine ⟨_, rfl, stepped_whenPowered (stepped_ifReady (Unmoved.orderly ?_))⟩
    exact unmoved_setPort ⟨rfl, rfl, fun _ h => h⟩
  | wakeTransmit p =>
    refine ⟨_, rfl, stepped_whenPowered (stepped_ifReady (Unmoved.orderly ?_))⟩
    exact unmoved_setPort ⟨rfl, rfl, fun _ h => h⟩
  | branchEgressTransmit p =>
    refine ⟨_, rfl, stepped_whenPowered ?_⟩
    cases hq : s.egressReady p with
    | none => exact (Unmoved.refl s).stepped
    | some q => exact (orderly_sendEgress hq).stepped
  | replyLaneTransmit => exact ⟨_, rfl, stepped_whenPowered (stepped_ifReady (orderly_sendReply s))⟩
  | generalQueueTransmit => exact ⟨_, rfl, stepped_whenPowered (stepped_ifReady (orderly_sendGeneral s))⟩
  | signalPresent l => exact ⟨_, rfl, stepped_whenPowered (unmoved_modLink ..).stepped⟩
  | routerTimeTick => exact ⟨_, rfl, stepped_whenPowered (orderly_tick s).stepped⟩
  | transmitterFree l => exact ⟨_, rfl, stepped_whenPowered (unmoved_modLink ..).stepped⟩
  | disallowedKindFrame l size kind =>
    exact ⟨_, rfl, (orderly_receive size (fun u => orderly_discardFrame) (fun u => orderly_frameInvalid _ _)
      (fun u => orderly_frameInvalid _ _) (fun u => orderly_discardFrame) s).stepped⟩
  | windowRecordWrite w bytes | apertureBaseWrite v | ticketLifetimeWrite v | headWaitLimitWrite v | routerReset
  | portEnable p e u v | autoDozeIntervalWrite p e u v | dozeCommand p | wakeCommand p | portResetCommand p
  | eventLineEnableWrite i e v | ack i | clear i | pop | droppedCountClear v | counterClear l k n v
  | managementWrite off data => exact ⟨_, rfl, (orderly_receiveRequest ..).stepped⟩

/-- A step runs one command, or none (log 2). -/
theorem stepped_step {s t : State} (h : step s = .next t) : Stepped s t := by
  unfold step at h
  split at h
  · obtain rfl := Host.Outcome.next.inj h
    exact (Unmoved.refl s).stepped
  · rename_i c rest _
    have taken : Unmoved s (s.withPending rest) := {}
    have run := stepped_exec h
    have before := taken.orderly.drains
    exact ⟨taken.housed.trans run.housed, fun p hp => run.granted p (before.granted p hp),
      fun hd w hw => run.passing hd w (before.passing w hw)⟩

/-- Settles O54: every step keeps each entry in its place, which makes a quiet port an empty one. -/
theorem stepsKeepEveryReadInItsPlace : Obligations.StepsKeepEveryReadInItsPlace := by
  unfold Obligations.StepsKeepEveryReadInItsPlace
  intro s t placed h
  have housed := (stepped_step h).housed
  have placed' := housed.placed placed
  rw [portsQuiet_iff placed, portsQuiet_iff placed']
  exact ⟨placed', housed.closed placed⟩

/-- Settles O57: every step keeps the slots granted and, but for the loss of the trunk, the heads passing; the tick examines
what a loss uncovered. -/
theorem stepsDrainWhatCanDrain : Obligations.StepsDrainWhatCanDrain := by
  unfold Obligations.StepsDrainWhatCanDrain
  refine ⟨fun s t h => ?_, fun s porN slots => ⟨tick s, ?_, drained_tick slots⟩⟩
  · have run := stepped_step h
    rw [slotsGranted_iff, slotsGranted_iff, drained_iff, drained_iff]
    exact ⟨fun hg p => run.granted p (hg p),
      fun ⟨hg, hp⟩ hd => ⟨fun p => run.granted p (hg p), fun w => run.passing hd w (hp w)⟩⟩
  · show Host.Outcome.next (whenPowered tick s) = _
    rw [whenPowered, if_pos porN]

end Sys2Proof.Machine
end

section
/-! A port that enters DOWN or OFF (O31): the record of the cause, the flush, and the ends of the requests that its draining
windows hold. `Ended` says which entries are answered and which records are made; `Calm` that the ports stay. -/

namespace Sys2Proof.Machine

-- The theorems are checked one after the other, which bounds the memory that the check takes.
set_option Elab.async false

/-! ### Records -/

/-- The fault log takes records in order while it has room, and counts the others as dropped (R160, R161). -/
structure Logged (rs : List FaultRecord) (s t : State) : Prop where
  log : t.faultLog = s.faultLog ++ rs.take (16 - s.faultLog.length)
  dropped : t.dropped.toNat = min 65535 (s.dropped.toNat + (rs.length - (16 - s.faultLog.length)))

theorem logged_of_same {s t : State} (hl : t.faultLog = s.faultLog) (hd : t.dropped = s.dropped) : Logged [] s t := by
  have bound : s.dropped.toNat < 65536 := s.dropped.isLt
  exact ⟨by rw [hl, List.take_nil, List.append_nil], by rw [hd, List.length_nil]; omega⟩

theorem Logged.trans {rs qs : List FaultRecord} {s t u : State} (h : Logged rs s t) (k : Logged qs t u) :
    Logged (rs ++ qs) s u := by
  have length : 16 - t.faultLog.length = 16 - s.faultLog.length - rs.length := by
    rw [h.log, List.length_append, List.length_take]
    omega
  constructor
  · rw [k.log, length, h.log, List.take_append, List.append_assoc]
  · rw [k.dropped, length, h.dropped, List.length_append]
    omega

/-- One fault is one record (R160). -/
theorem logged_recordFault (k : FaultKind) (src : FaultSource) (w : Option WindowIdx) (t : Option (BitVec 6))
    (a : Option HostAddr) (c : Option FaultCount) (s : State) :
    Logged [⟨k, src, w, t, a, c, s.time⟩] s (recordFault k src w t a c s) := by
  have bound : s.dropped.toNat < 65536 := s.dropped.isLt
  constructor
  · rw [recordFault_faultLog]
    split
    · rename_i room
      rw [List.take_of_length_le (by simp; omega)]
    · rename_i full
      rw [Nat.sub_eq_zero_of_le (Nat.not_lt.mp full), List.take_zero, List.append_nil]
  · rw [recordFault_dropped, List.length_singleton]
    split
    · omega
    · split
      · rename_i top
        rw [top]
        simp
      · rename_i below
        have : s.dropped.toNat ≠ 65535 := fun e => below (BitVec.eq_of_toNat_eq e)
        show (s.dropped.toNat + 1) % 65536 = _
        omega

/-! ### Entries that end -/

/-- The entries of `ends` are answered with their statuses, in order at the tail of the reply lane, and leave the sent
orders; the records `rs` are made. Every other entry stays, and nothing changes that the branch side does not hold. -/
structure Ended (ends : List (EntryIdx × Status)) (rs : List FaultRecord) (s t : State) : Prop where
  side : BranchSide s t
  log : Logged rs s t
  lane : t.replyLane = s.replyLane ++ ends.map Prod.fst
  answered : ∀ i st v, (i, st) ∈ ends → (s.entry i).live = some v →
    t.entry i = ⟨(s.entry i).epoch, some { v with stage := .replying v.stage.route st [] }⟩
  others : ∀ i, i ∉ ends.map Prod.fst → t.entry i = s.entry i
  sent : ∀ q, t.sentOf q = (s.sentOf q).filter (· ∉ ends.map Prod.fst)
  tickets : ∀ i, t.ticketOf i = s.ticketOf i

/-- What changes neither entries nor orders nor log ends nothing. -/
theorem ended_of_same {s t : State} (side : BranchSide s t) (log : t.faultLog = s.faultLog := by rfl)
    (dropped : t.dropped = s.dropped := by rfl) (entries : t.entries = s.entries := by rfl)
    (sent : t.sentOrder = s.sentOrder := by rfl) (lane : t.replyLane = s.replyLane := by rfl) : Ended [] [] s t where
  side := side
  log := logged_of_same log dropped
  lane := by rw [lane, List.map_nil, List.append_nil]
  answered _ _ _ h := absurd h List.not_mem_nil
  others i _ := by rw [State.entry, entries]; rfl
  sent q := by rw [State.sentOf, sent]; simp [State.sentOf]
  tickets i := by rw [State.ticketOf, State.entry, entries]; rfl

theorem Ended.trans {a b : List (EntryIdx × Status)} {rs qs : List FaultRecord} {s t u : State}
    (hd : ∀ i, i ∈ a.map Prod.fst → i ∉ b.map Prod.fst) (h : Ended a rs s t) (k : Ended b qs t u) :
    Ended (a ++ b) (rs ++ qs) s u where
  side := h.side.trans k.side
  log := h.log.trans k.log
  lane := by rw [k.lane, h.lane, List.map_append, List.append_assoc]
  answered i st v hi hv := by
    rcases List.mem_append.mp hi with hi | hi
    · rw [k.others i (hd i (List.mem_map_of_mem hi))]
      exact h.answered i st v hi hv
    · have same := h.others i fun e => hd i e (List.mem_map_of_mem hi)
      rw [k.answered i st v hi (by rw [same, hv]), same]
  others i hi := by
    rw [List.map_append, List.mem_append, not_or] at hi
    exact (k.others i hi.2).trans (h.others i hi.1)
  sent q := by
    rw [k.sent, h.sent, List.filter_filter]
    refine List.filter_congr fun i _ => ?_
    simp only [List.map_append, List.mem_append, not_or, Bool.decide_and]
    rw [Bool.and_comm]
  tickets i := (k.tickets i).trans (h.tickets i)

theorem ended_recordFault (k : FaultKind) (src : FaultSource) (w : Option WindowIdx) (t : Option (BitVec 6))
    (a : Option HostAddr) (c : Option FaultCount) (s : State) :
    Ended [] [⟨k, src, w, t, a, c, s.time⟩] s (recordFault k src w t a c s) where
  side := recordFault_branchSide ..
  log := logged_recordFault ..
  lane := by simp
  answered _ _ _ h := absurd h List.not_mem_nil
  others i _ := recordFault_entry ..
  sent q := by simp
  tickets i := by simp only [State.ticketOf, recordFault_entry]

/-- An entry that is live and not in REPLYING is answered. -/
theorem ended_toReplying {s : State} {i : EntryIdx} (h : ∃ v, (s.entry i).live = some v ∧ v.stage.isReplying = false)
    (st : Status) : Ended [(i, st)] [] s (toReplying i st [] s) := by
  obtain ⟨v, hv, hr⟩ := h
  rw [toReplying_live hv hr]
  have self : (s.answered i v st []).entry i =
      ⟨(s.entry i).epoch, some { v with stage := .replying v.stage.route st [] }⟩ := State.entry_setEntry_self s i _
  have others : ∀ j, j ≠ i → (s.answered i v st []).entry j = s.entry j := (movesOnly_answered s i v st []).entry
  refine ⟨by constructor <;> rfl, logged_of_same rfl rfl, rfl, fun j st' u hj hu => ?_, fun j hj => ?_, fun q => ?_,
    fun j => ?_⟩
  · obtain ⟨rfl, rfl⟩ := Prod.mk.inj (List.mem_singleton.mp hj)
    obtain rfl := Option.some.inj (hv.symm.trans hu)
    exact self
  · exact others j fun e => hj (by simp [e])
  · refine (readsAt_answered s i v st [] (.sent q)).trans (List.filter_congr fun j _ => ?_)
    simp
  · by_cases hj : j = i
    · subst hj
      simp only [State.ticketOf, self, hv, Option.map_some]
    · simp only [State.ticketOf, others j hj]

/-- The answers that a list of held requests gets, each READ by the failure of its request. -/
def heldEnds (f : Held → FaultKind × Status) (l : List Held) : List (EntryIdx × Status) :=
  l.flatMap fun h => match h.body with
    | .read i => [(i, (f h).2)]
    | .write _ => []

/-- The host ticket of a held READ, by a table of tickets. -/
def Held.ticket (tickets : EntryIdx → Option (BitVec 6)) (h : Held) : Option (BitVec 6) :=
  match h.body with
  | .read i => tickets i
  | .write _ => none

/-- The record of a failed release (R28). -/
def failRecord (w : WindowIdx) (f : Held → FaultKind × Status) (tickets : EntryIdx → Option (BitVec 6)) (now : Time)
    (h : Held) : FaultRecord :=
  ⟨(f h).1, .decoder, some w, h.ticket tickets, some h.address, none, now⟩

theorem heldEnds_cons (f : Held → FaultKind × Status) (h : Held) (l : List Held) :
    heldEnds f (h :: l) = heldEnds f [h] ++ heldEnds f l := by
  simp [heldEnds]

theorem map_fst_heldEnds (f : Held → FaultKind × Status) (l : List Held) : (heldEnds f l).map Prod.fst = heldReads l := by
  induction l with
  | nil => rfl
  | cons h l ih =>
    rw [heldEnds_cons, List.map_append, ih, heldReads_cons]
    cases hb : h.body <;> simp [heldEnds, hb]

/-- A held request ends with the status of its failure. -/
theorem ended_endHeld {s : State} {h : Held} (f : Held → FaultKind × Status)
    (live : ∀ i, h.body = .read i → ∃ v, (s.entry i).live = some v ∧ v.stage.isReplying = false) :
    Ended (heldEnds f [h]) [] s (endHeld (f h).2 h s) := by
  cases hb : h.body with
  | write d =>
    simp only [heldEnds, List.flatMap_singleton, hb, endHeld]
    exact ended_of_same (.refl s)
  | read i =>
    simp only [heldEnds, List.flatMap_singleton, hb, endHeld]
    exact ended_toReplying (live i hb) _

/-! ### Ports and claims -/

/-- Where no claimant waits for a free slot none waits afterwards, and the ports stay. -/
structure Calm (s t : State) : Prop where
  admitted : s.admitted → t.admitted
  ports : s.admitted → t.ports = s.ports

theorem Calm.refl (s : State) : Calm s s := ⟨id, fun _ => rfl⟩

theorem Calm.trans {s t u : State} (h : Calm s t) (k : Calm t u) : Calm s u :=
  ⟨k.admitted ∘ h.admitted, fun hs => (k.ports (h.admitted hs)).trans (h.ports hs)⟩

/-- What a claim rests on: the trunk, the general queue, the decoder, the lines and the buffers. -/
theorem admitted_congr {s t : State} (ht : t.trunkState = s.trunkState) (hq : t.generalQueue = s.generalQueue)
    (hd : t.decoder = s.decoder) (hl : t.lines = s.lines) (hlast : t.lastLine = s.lastLine)
    (hb : ∀ p, (s.port p).buffer = [] → (t.port p).buffer = []) (h : s.admitted) : t.admitted := by
  intro hg c
  have before := h (by rw [← hg, State.generalFree, State.generalFree, ht, hq])
  cases c with
  | decoder => rw [← before .decoder]; simp only [State.claims, hd]
  | branch p =>
    have empty : (s.port p).buffer = [] := by simpa [State.claims] using before (.branch p)
    simp [State.claims, hb p empty]
  | eventUnit =>
    rw [← before .eventUnit]
    simp only [State.claims, State.nextLine, State.line, ht, hl, hlast]

theorem admitted_toReplying {s : State} (h : s.admitted) (i : EntryIdx) (st : Status) (data : List Byte) :
    (toReplying i st data s).admitted := by
  obtain ⟨e, _⟩ | ⟨_, _, _, e⟩ := toReplying_cases i st data s <;> rw [e]
  · exact h
  · exact admitted_congr rfl rfl rfl rfl rfl (fun _ hb => hb) h

theorem calm_endHeld (st : Status) (x : Held) (s : State) : Calm s (endHeld st x s) := by
  refine ⟨fun h => ?_, fun _ => endHeld_ports ..⟩
  unfold endHeld
  split
  · exact admitted_toReplying h _ _ _
  · exact h

theorem calm_setHoldList (w : WindowIdx) (l : List Held) (s : State) : Calm s (s.setHoldList w l) :=
  ⟨admitted_congr rfl rfl rfl rfl rfl (fun _ hb => hb), fun _ => rfl⟩

/-- The arbiter only adds to the general queue (R141). -/
theorem generalQueue_serveLoop (n : Nat) (s : State) : s.generalQueue.length ≤ (serveLoop n s).generalQueue.length := by
  induction n generalizing s with
  | zero => exact Nat.le_refl _
  | succ n ih =>
    simp only [serveLoop]
    split
    · split
      · rename_i hn
        have := grantBranch_length (nextClaimant_claims hn)
        exact Nat.le_trans (by omega) (ih _)
      · rename_i hn
        have := grantEvent_length (nextClaimant_claims hn)
        exact Nat.le_trans (by omega) (ih _)
      · exact Nat.le_refl _
      · exact Nat.le_refl _
    · exact Nat.le_refl _

theorem generalQueue_recordFault (k : FaultKind) (src : FaultSource) (w : Option WindowIdx) (t : Option (BitVec 6))
    (a : Option HostAddr) (c : Option FaultCount) (s : State) :
    s.generalQueue.length ≤ (recordFault k src w t a c s).generalQueue.length := by
  have taken : ∀ r, (takeFault r s).generalQueue = s.generalQueue := fun r => by rw [takeFault_eq]
  have arrived : ∀ u : State, u.generalQueue.length ≤ (arrival 32 u).generalQueue.length := fun u =>
    generalQueue_serveLoop _ (u.setLine 32 (u.line 32).arrive)
  exact Nat.le_trans (by rw [taken]) (arrived (takeFault ⟨k, src, w, t, a, c, s.time⟩ s))

/-- Every claimant comes up in the cyclic order (R140). -/
theorem mem_after (a c : Claimant) : c ∈ a.after := by
  cases a with
  | decoder | eventUnit =>
    cases c with
    | decoder | eventUnit => decide
    | branch p => fin_cases p <;> decide
  | branch q =>
    cases c with
    | decoder | eventUnit => fin_cases q <;> decide
    | branch p => fin_cases q <;> fin_cases p <;> decide

theorem claims_of_nextClaimant_none {s : State} (h : s.nextClaimant = none) (c : Claimant) : s.claims c = false := by
  simpa using List.find?_eq_none.mp h c (mem_after s.arbLast c)

/-- A fault where no claimant waits for a free slot leaves none waiting, and the ports as they are. -/
theorem calm_recordFault (k : FaultKind) (src : FaultSource) (w : Option WindowIdx) (t : Option (BitVec 6))
    (a : Option HostAddr) (c : Option FaultCount) (s : State) : Calm s (recordFault k src w t a c s) := by
  refine ⟨fun h hg => ?_, fun h => recordFault_ports h ..⟩
  have free : s.generalFree = true := by
    simp only [State.generalFree, Bool.and_eq_true, decide_eq_true_eq, recordFault_trunkState] at hg ⊢
    exact ⟨hg.1, Nat.lt_of_le_of_lt (generalQueue_recordFault k src w t a c s) hg.2⟩
  refine claims_of_nextClaimant_none ?_
  have stuck : (recordFault k src w t a c s).stuck := serveClaims_stuck _
  rcases stuck hg with none | decoder
  · exact none
  · have claims := nextClaimant_claims decoder
    rw [State.claims, recordFault_decoder] at claims
    have quiet := h free .decoder
    rw [State.claims, claims] at quiet
    cases quiet

/-! ### The examination of a list whose every request fails -/

theorem releaseFailure_congr {s t : State} {w : WindowIdx} (hw : t.window w = s.window w)
    (ha : (t.port (s.window w).portIdx).state.accepts = (s.port (s.window w).portIdx).state.accepts) (x : Held) :
    t.releaseFailure w x = s.releaseFailure w x := by
  simp only [State.releaseFailure, hw, ha]

/-- The end of one head: its answer and its record (R27, R28). -/
theorem ended_head {s : State} {w : WindowIdx} {x : Held} {rest : List Held} (hs : s.placed) (hl : s.holdList w = x :: rest)
    (f : Held → FaultKind × Status) :
    Ended (heldEnds f [x]) [failRecord w f s.ticketOf s.time x] s (recordFault (f x).1 .decoder (some w)
      (s.bodyTicket x.body) (some x.address) none (endHeld (f x).2 x (s.setHoldList w rest))) := by
  have live : ∀ i, x.body = .read i → ∃ v, ((s.setHoldList w rest).entry i).live = some v ∧ v.stage.isReplying = false := by
    intro i hi
    refine live_of_place (x := .held w) (hs.mem_iff.mp ?_) (by simp)
    simp [State.readsAt, hl, heldReads_cons, hi]
  have removed : Ended [] [] s (s.setHoldList w rest) := ended_of_same (by constructor <;> rfl)
  have ended := (removed.trans (by simp) (ended_endHeld f live)).trans (by simp)
    (ended_recordFault (f x).1 .decoder (some w) (s.bodyTicket x.body) (some x.address) none _)
  have record : failRecord w f s.ticketOf s.time x = ⟨(f x).1, .decoder, some w, s.bodyTicket x.body, some x.address, none,
      (endHeld (f x).2 x (s.setHoldList w rest)).time⟩ := by
    rw [failRecord, (endHeld_branchSide ..).time]
    cases hb : x.body <;> simp [Held.ticket, State.bodyTicket, hb]
  rw [record]
  simpa using ended

/-- A draining list whose every request fails ends in list order (R27 to R29). -/
theorem ended_failRun {w : WindowIdx} (f : Held → FaultKind × Status) (l : List Held) {s : State} (hs : s.placed)
    (hl : s.holdList w = l) (hd : l ≠ [] → s.windowState w = .drain)
    (hf : ∀ x ∈ l, s.releaseFailure w x = some (f x)) :
    Ended (heldEnds f l) (l.map (failRecord w f s.ticketOf s.time)) s (failRun w l.length s) ∧
      Calm s (failRun w l.length s) ∧ (failRun w l.length s).holdList w = [] := by
  induction l generalizing s with
  | nil => exact ⟨ended_of_same (.refl s), .refl s, hl⟩
  | cons x rest ih =>
    have drain := hd (List.cons_ne_nil _ _)
    generalize hu : recordFault (f x).1 .decoder (some w) (s.bodyTicket x.body) (some x.address) none
      (endHeld (f x).2 x (s.setHoldList w rest)) = u
    have run : failRun w (x :: rest).length s = failRun w rest.length u := by
      rw [← hu]
      simp only [List.length_cons, failRun, drain, hl, hf x List.mem_cons_self, if_true]
    have head : Ended (heldEnds f [x]) [failRecord w f s.ticketOf s.time x] s u := hu ▸ ended_head hs hl f
    have narrow : Narrow w s u := by
      rw [← hu]
      exact (narrow_setHoldList ..).trans ((narrow_endHeld ..).trans ((unmoved_recordFault ..).narrow w))
    have window : u.window w = s.window w := by rw [State.window, head.side.windows]; rfl
    have list : u.holdList w = rest := by
      rw [← hu, recordFault_holdList, endHeld_holdList, State.holdList_setHoldList_self]
    have placed : u.placed := by
      rw [← hu]
      exact (unmoved_recordFault ..).housed.placed ((housed_endHead hl _).placed hs)
    obtain ⟨ended, calm, empty⟩ := ih placed list
      (fun hne => by
        obtain ⟨enabled, pass, _⟩ := windowState_eq_drain_iff.mp drain
        exact windowState_eq_drain_iff.mpr ⟨by rw [window]; exact enabled, by rw [window]; exact pass, by rw [list]; exact hne⟩)
      (fun y hy => by
        rw [releaseFailure_congr window (narrow.accepts _)]
        exact hf y (List.mem_cons_of_mem x hy))
    rw [run]
    have distinct : (heldReads (x :: rest)).Nodup := hl ▸ hs.nodup (.held w)
    refine ⟨?_, Calm.trans ?_ calm, empty⟩
    · have tickets : u.ticketOf = s.ticketOf := funext head.tickets
      rw [tickets, head.side.time] at ended
      rw [heldEnds_cons, List.map_cons, ← List.singleton_append (l := rest.map _)]
      refine head.trans (fun i hi hrest => ?_) ended
      rw [map_fst_heldEnds] at hi hrest
      have split : heldReads (x :: rest) = heldReads [x] ++ heldReads rest := heldReads_append [x] rest
      rw [split] at distinct
      exact (List.nodup_append.mp distinct).2.2 i hi i hrest rfl
    · rw [← hu]
      exact (calm_setHoldList ..).trans ((calm_endHeld ..).trans (calm_recordFault ..))

/-! ### The windows of a port -/

/-- What a closing port ends of a window's list: all of it where the window drains into the port (R35). -/
def State.endedList (s : State) (p : PortIdx) (w : WindowIdx) : List Held :=
  if s.windowState w = .drain ∧ (s.window w).portIdx = p then s.holdList w else []

/-- The examination of one window of a closed port. -/
theorem ended_examineHeads {s : State} {p : PortIdx} {w : WindowIdx} (f : Held → FaultKind × Status) (hs : s.placed)
    (hp : (s.window w).portIdx = p) (hf : ∀ x, s.releaseFailure w x = some (f x)) :
    Ended (heldEnds f (s.endedList p w)) ((s.endedList p w).map (failRecord w f s.ticketOf s.time)) s (examineHeads w s) ∧
      Calm s (examineHeads w s) ∧
      (examineHeads w s).holdList w = if s.windowState w = .drain then [] else s.holdList w := by
  by_cases hd : s.windowState w = .drain
  · have list : s.endedList p w = s.holdList w := if_pos ⟨hd, hp⟩
    rw [list, if_pos hd]
    exact ended_failRun f _ hs rfl (fun _ => hd) fun x _ => hf x
  · have list : s.endedList p w = [] := if_neg fun h => hd h.1
    rw [list, if_neg hd, examineHeads_of_not_drain hd]
    exact ⟨ended_of_same (.refl s), .refl s, rfl⟩

/-- A step of the examinations that follow a port's closing (R35). -/
def examineOf (p : PortIdx) (s : State) (w : WindowIdx) : State :=
  if (s.window w).portIdx = p then examineHeads w s else s

theorem narrow_examineOf (p : PortIdx) (w : WindowIdx) (s : State) : Narrow w s (examineOf p s w) := by
  unfold examineOf
  split
  · exact narrow_examineHeads w s
  · exact .refl w s

theorem housed_examineOf (p : PortIdx) (w : WindowIdx) (s : State) : Housed s (examineOf p s w) := by
  unfold examineOf
  split
  · exact housed_examineHeads w s
  · exact .refl s

theorem examineOf_window (p : PortIdx) (w x : WindowIdx) (s : State) : (examineOf p s w).window x = s.window x := by
  unfold examineOf
  split
  · exact examineHeads_window ..
  · rfl

theorem ended_examineOf {s : State} {p : PortIdx} {w : WindowIdx} (f : Held → FaultKind × Status) (hs : s.placed)
    (hf : (s.window w).portIdx = p → ∀ x, s.releaseFailure w x = some (f x)) :
    Ended (heldEnds f (s.endedList p w)) ((s.endedList p w).map (failRecord w f s.ticketOf s.time)) s (examineOf p s w) ∧
      Calm s (examineOf p s w) ∧
      (examineOf p s w).holdList w =
        if s.windowState w = .drain ∧ (s.window w).portIdx = p then [] else s.holdList w := by
  unfold examineOf
  by_cases hp : (s.window w).portIdx = p
  · simpa only [hp, and_true, if_true] using ended_examineHeads f hs hp (hf hp)
  · have list : s.endedList p w = [] := if_neg fun h => hp h.2
    rw [list, if_neg hp, if_neg fun h => hp h.2]
    exact ⟨ended_of_same (.refl s), .refl s, rfl⟩

/-- What a window of other number keeps in a step of the examinations. -/
theorem endedList_examineOf {p : PortIdx} {w x : WindowIdx} (h : x ≠ w) (s : State) :
    (examineOf p s w).endedList p x = s.endedList p x := by
  have narrow := narrow_examineOf p w s
  rw [State.endedList, State.endedList, (narrow.alike h).window, narrow.holdList x h,
    windowState_congr (narrow.alike h).window (narrow.alike h).head]

/-- Window by window in index order, the lists that drain into the closed port end (R35). -/
theorem ended_foldl_examineOf {p : PortIdx} (f : WindowIdx → Held → FaultKind × Status) (ws : List WindowIdx) (hws : ws.Nodup)
    {s : State} (hs : s.placed)
    (hf : ∀ w, (s.window w).portIdx = p → ∀ x, s.releaseFailure w x = some (f w x)) :
    Ended (ws.flatMap fun w => heldEnds (f w) (s.endedList p w))
        (ws.flatMap fun w => (s.endedList p w).map (failRecord w (f w) s.ticketOf s.time)) s (ws.foldl (examineOf p) s) ∧
      Calm s (ws.foldl (examineOf p) s) ∧
      ∀ w, (ws.foldl (examineOf p) s).holdList w =
        if w ∈ ws ∧ s.windowState w = .drain ∧ (s.window w).portIdx = p then [] else s.holdList w := by
  induction ws generalizing s with
  | nil => exact ⟨ended_of_same (.refl s), .refl s, fun w => by simp⟩
  | cons w ws ih =>
    obtain ⟨hw, hws⟩ := List.nodup_cons.mp hws
    obtain ⟨first, calm, list⟩ := ended_examineOf (p := p) (w := w) (f w) hs (hf w)
    have narrow := narrow_examineOf p w s
    obtain ⟨rest, calms, lists⟩ := ih hws ((housed_examineOf p w s).placed hs) fun x hx y => by
      rw [examineOf_window] at hx
      rw [releaseFailure_congr (examineOf_window ..) (narrow.accepts _)]
      exact hf x hx y
    have same : ∀ x ∈ ws, (examineOf p s w).endedList p x = s.endedList p x := fun x hx =>
      endedList_examineOf (by rintro rfl; exact hw hx) s
    have tickets : (examineOf p s w).ticketOf = s.ticketOf := funext first.tickets
    rw [tickets, first.side.time,
      List.flatMap_congr fun x hx => by rw [same x hx],
      List.flatMap_congr (f := fun x => ((examineOf p s w).endedList p x).map _) fun x hx => by rw [same x hx]] at rest
    refine ⟨?_, calm.trans calms, fun x => ?_⟩
    · rw [List.flatMap_cons, List.flatMap_cons, List.foldl_cons]
      refine first.trans (fun i hi hrest => ?_) rest
      have stands : ∀ y, i ∈ heldReads (s.endedList p y) → (s.entry i).place = some (.held y) := by
        intro y hy
        rw [State.endedList] at hy
        split at hy
        · exact (hs.mem_iff (x := .held y)).mp hy
        · exact absurd hy List.not_mem_nil
      rw [map_fst_heldEnds] at hi
      obtain ⟨⟨j, st⟩, hj, rfl⟩ := List.mem_map.mp hrest
      obtain ⟨y, hy, hjy⟩ := List.mem_flatMap.mp hj
      have hjy' : j ∈ heldReads (s.endedList p y) := by
        rw [← map_fst_heldEnds (f y)]; exact List.mem_map_of_mem hjy
      have place := stands w hi
      rw [stands y hjy'] at place
      obtain rfl := Place.held.inj (Option.some.inj place)
      exact hw hy
    · rw [List.foldl_cons, lists]
      by_cases hx : x = w
      · subst hx
        rw [if_neg fun h => hw h.1, list]
        simp
      · rw [(narrow.alike hx).window, narrow.holdList x hx, windowState_congr (narrow.alike hx).window (narrow.alike hx).head]
        simp [hx]

end Sys2Proof.Machine
end

section
/-! The flush of a port and the settlement of O31. -/

namespace Sys2Proof.Machine

-- The theorems are checked one after the other, which bounds the memory that the check takes.
set_option Elab.async false

/-! ### The flush -/

/-- Different entries, each live and not in REPLYING, are answered in order. -/
theorem ended_foldl_toReplying (st : Status) (l : List EntryIdx) (hn : l.Nodup) {s : State}
    (live : ∀ i ∈ l, ∃ v, (s.entry i).live = some v ∧ v.stage.isReplying = false) :
    Ended (l.map fun i => (i, st)) [] s (l.foldl (fun s i => toReplying i st [] s) s) := by
  induction l generalizing s with
  | nil => exact ended_of_same (.refl s)
  | cons i l ih =>
    obtain ⟨hi, hn⟩ := List.nodup_cons.mp hn
    have first := ended_toReplying (live i List.mem_cons_self) st
    have rest := ih hn fun j hj => by
      rw [first.others j (by simp only [List.map_singleton, List.mem_singleton]; rintro rfl; exact hi hj)]
      exact live j (List.mem_cons_of_mem i hj)
    refine first.trans (fun j hj hrest => ?_) rest
    obtain rfl := List.mem_singleton.mp hj
    simp only [List.map_map, Function.comp_def, List.map_id'] at hrest
    exact hi hrest

/-- The record of a flush, if anything ended (R111). -/
def flushRecords (p : PortIdx) (reads writes : Nat) (now : Time) : List FaultRecord :=
  if reads + writes = 0 then [] else
    [⟨.flush, .branch p, none, none, none, some (.pair (BitVec.ofNat 8 reads) (BitVec.ofNat 8 writes)), now⟩]

theorem ended_flushed {s : State} (hs : s.placed) (st : PortState) (p : PortIdx) :
    Ended ((s.flushAnswers p).map fun i => (i, .unclaimed)) [] s (flushed st p s) := by
  have silenced : Ended [] [] s (s.setPort p ((s.port p).silence st)) := ended_of_same (by constructor <;> rfl)
  have live : ∀ i ∈ s.flushAnswers p, ∃ v, (s.entry i).live = some v ∧ v.stage.isReplying = false := by
    intro i hi
    rcases worksFor_iff.mp ((mem_flushAnswers hs).mp hi) with place | place <;> exact live_of_place place (by simp)
  exact silenced.trans (by simp) (ended_foldl_toReplying .unclaimed _ (flushAnswers_nodup hs p) live)

/-- A flush answers the READs of its port and makes its record (R78, R111). -/
theorem ended_flush {s : State} (hs : s.placed) (st : PortState) (p : PortIdx) :
    Ended ((s.flushAnswers p).map fun i => (i, .unclaimed))
      (flushRecords p (s.flushAnswers p).length (s.flushWrites p) s.time) s (flush st p s) := by
  have flushed := ended_flushed hs st p
  rw [flush_eq, flushRecords]
  by_cases h : (s.flushAnswers p).length = 0 ∧ s.flushWrites p = 0
  · rw [if_pos h, if_pos (by omega)]
    exact flushed
  · rw [if_neg h, if_neg (by omega), ← flushed.side.time]
    simpa using flushed.trans (by simp) (ended_recordFault .flush (.branch p) none none none _ _)

/-- A flush silences its port and leaves the others, and no claimant waits afterwards that did not wait. -/
theorem flush_ports {s : State} (h : s.admitted) (st : PortState) (p : PortIdx) :
    (flush st p s).admitted ∧ ∀ q, (flush st p s).port q = if p = q then (s.port p).silence st else s.port q := by
  have answered : ∀ (l : List EntryIdx) (u : State), u.admitted →
      (l.foldl (fun s i => toReplying i .unclaimed [] s) u).admitted := by
    intro l
    induction l with
    | nil => exact fun _ hu => hu
    | cons i l ih => exact fun u hu => ih _ (admitted_toReplying hu i .unclaimed [])
  have silenced : (s.setPort p ((s.port p).silence st)).admitted := by
    refine admitted_congr (s := s) rfl rfl rfl rfl rfl (fun q hq => ?_) h
    rw [State.port_setPort]
    split
    · rfl
    · exact hq
  have admitted : (flushed st p s).admitted := answered _ _ silenced
  rw [flush_eq]
  split
  · exact ⟨admitted, port_flushed s st p⟩
  · have calm := calm_recordFault .flush (.branch p) none none none
      (some (.pair (BitVec.ofNat 8 (s.flushAnswers p).length) (BitVec.ofNat 8 (s.flushWrites p)))) (flushed st p s)
    refine ⟨calm.admitted admitted, fun q => ?_⟩
    rw [State.port, calm.ports admitted]
    exact port_flushed s st p q

/-- A flush leaves the hold lists and the records of windows. -/
theorem flush_lists (st : PortState) (p : PortIdx) (s : State) :
    (flush st p s).windows = s.windows ∧ (flush st p s).holdLists = s.holdLists := by
  obtain ⟨windows, lists⟩ := windows_flushed st p s
  rw [flush_eq]
  split
  · exact ⟨windows, lists⟩
  · rw [recordFault_windows, recordFault_holdLists]
    exact ⟨windows, lists⟩

/-! ### The whole happening -/

/-- The record of the cause of a port's entry to DOWN, where there is one (R112). -/
def causeRecords (p : PortIdx) (cause : Option FaultKind) (now : Time) : List FaultRecord :=
  (cause.map fun k => ⟨k, .branch p, none, none, none, none, now⟩).toList

/-- The state in which a port's cause is recorded. -/
def recordCause (cause : Option FaultKind) (p : PortIdx) (s : State) : State :=
  match cause with
  | some k => recordFault k (.branch p) none none none none s
  | none => s

theorem ended_recordCause (cause : Option FaultKind) (p : PortIdx) (s : State) :
    Ended [] (causeRecords p cause s.time) s (recordCause cause p s) := by
  cases cause with
  | none => exact ended_of_same (.refl s)
  | some k => exact ended_recordFault ..

theorem calm_recordCause (cause : Option FaultKind) (p : PortIdx) (s : State) : Calm s (recordCause cause p s) := by
  cases cause with
  | none => exact .refl s
  | some k => exact calm_recordFault ..

theorem unmoved_recordCause (cause : Option FaultKind) (p : PortIdx) (s : State) : Unmoved s (recordCause cause p s) := by
  cases cause with
  | none => exact .refl s
  | some k => exact unmoved_recordFault ..

/-- A port's entry to DOWN or OFF: the cause, the flush, and the windows in index order (R35, R111, R112). -/
theorem portDown_eq (st : PortState) (cause : Option FaultKind) (p : PortIdx) (s : State) :
    portDown st cause p s = (List.finRange 24).foldl (examineOf p) (flush st p (recordCause cause p s)) := by
  cases cause <;> rfl

/-- Why a held request fails at a closed port: a failing check, and else the port check (R17, R28, R35). -/
def State.closedFailure (s : State) (w : WindowIdx) (x : Held) : FaultKind × Status :=
  (s.releaseFailure w x).getD (.portUnavailable, .unclaimed)

/-- At a port that closed every request fails, with the failure that it had before or the port check. -/
theorem releaseFailure_closed {s t : State} {w : WindowIdx} (hw : t.window w = s.window w)
    (hopen : (s.port (s.window w).portIdx).state.accepts = true)
    (hclosed : (t.port (s.window w).portIdx).state.accepts = false) (x : Held) :
    t.releaseFailure w x = some (s.closedFailure w x) := by
  simp only [State.closedFailure, State.releaseFailure, hw, hopen, hclosed]
  generalize (!(s.window w).contains x.address || (s.window w).crosses x.address x.length) = outside,
    (!if x.body.isRead then (s.window w).readPermit else (s.window w).writePermit) = barred
  cases outside <;> cases barred <;> rfl

/-- What ends where a port closes: the READs of its flush, then those of the lists that drain into it. -/
def State.closingEnds (s : State) (p : PortIdx) : List (EntryIdx × Status) :=
  (s.flushAnswers p).map (fun i => (i, .unclaimed)) ++
    (List.finRange 24).flatMap fun w => heldEnds (s.closedFailure w) (s.endedList p w)

/-- The records of a port's closing: the cause, the flush, then the ends window by window (R161). -/
def State.closingRecords (s : State) (p : PortIdx) (cause : Option FaultKind) : List FaultRecord :=
  causeRecords p cause s.time ++ flushRecords p (s.flushAnswers p).length (s.flushWrites p) s.time ++
    (List.finRange 24).flatMap fun w => (s.endedList p w).map (failRecord w (s.closedFailure w) s.ticketOf s.time)

section
variable {s : State} {p : PortIdx}

/-- The entries of a list that ends stand in it. -/
theorem place_of_endedList (hs : s.placed) {w : WindowIdx} {i : EntryIdx} (h : i ∈ heldReads (s.endedList p w)) :
    (s.entry i).place = some (.held w) := by
  rw [State.endedList] at h
  split at h
  · exact (hs.mem_iff (x := .held w)).mp h
  · exact absurd h List.not_mem_nil

theorem map_fst_closingEnds : (s.closingEnds p).map Prod.fst =
    s.flushAnswers p ++ (List.finRange 24).flatMap fun w => heldReads (s.endedList p w) := by
  simp only [State.closingEnds, List.map_append, List.map_map, Function.comp_def, List.map_id', List.map_flatMap,
    map_fst_heldEnds]

/-- The entries that end where a port closes work for it or stand in a list that ends. -/
theorem mem_closingEnds (hs : s.placed) {i : EntryIdx} : i ∈ (s.closingEnds p).map Prod.fst ↔
    (s.entry i).worksFor p = true ∨ ∃ w, i ∈ heldReads (s.endedList p w) := by
  rw [map_fst_closingEnds, List.mem_append, mem_flushAnswers hs, List.mem_flatMap]
  simp

/-- A port's entry to DOWN or OFF from a state that accepts requests: what ends, what claims, and what the lists hold. -/
theorem ended_portDown (hs : s.placed) (ha : s.admitted) (hopen : (s.port p).state.accepts = true) {st : PortState}
    (hst : st.accepts = false) (cause : Option FaultKind) :
    Ended (s.closingEnds p) (s.closingRecords p cause) s (portDown st cause p s) ∧
      (∀ q, (portDown st cause p s).port q = if p = q then (s.port p).silence st else s.port q) ∧
      ∀ w, (portDown st cause p s).holdList w =
        if s.windowState w = .drain ∧ (s.window w).portIdx = p then [] else s.holdList w := by
  generalize hu : recordCause cause p s = u
  generalize ht : flush st p u = t
  have recorded : Ended [] (causeRecords p cause s.time) s u := hu ▸ ended_recordCause cause p s
  have unmoved : Unmoved s u := hu ▸ unmoved_recordCause cause p s
  have calm : Calm s u := hu ▸ calm_recordCause cause p s
  have samePort : ∀ q, u.port q = s.port q := fun q => by rw [State.port, calm.ports ha]; rfl
  have placed : u.placed := unmoved.housed.placed hs
  have flushed := ended_flush placed st p
  have answers : u.flushAnswers p = s.flushAnswers p := by
    rw [State.flushAnswers, State.flushAnswers, unmoved.sentOf, samePort]
  have writes : u.flushWrites p = s.flushWrites p := by rw [State.flushWrites, State.flushWrites, samePort]
  obtain ⟨quiet, ports⟩ := flush_ports (calm.admitted ha) st p
  obtain ⟨windows, lists⟩ := flush_lists st p u
  rw [ht] at flushed quiet ports windows lists
  rw [answers, writes, recorded.side.time] at flushed
  have window : ∀ w, t.window w = s.window w := fun w => by rw [State.window, windows, unmoved.windows]; rfl
  have list : ∀ w, t.holdList w = s.holdList w := fun w => by rw [State.holdList, lists, unmoved.holdLists]; rfl
  have drains : ∀ w, t.windowState w = s.windowState w := fun w => windowState_congr (window w) (by rw [list])
  have sameEnded : ∀ w, t.endedList p w = s.endedList p w := fun w => by
    rw [State.endedList, State.endedList, drains, window, list]
  have closed : (t.port p).state.accepts = false := by rw [ports, if_pos rfl]; exact hst
  have placed' : t.placed := ht ▸ (housed_flush st p u).placed placed
  obtain ⟨ended, calms, emptied⟩ := ended_foldl_examineOf s.closedFailure (List.finRange 24) (List.nodup_finRange 24)
    placed' (p := p) fun w hw x => by
      rw [window] at hw
      exact releaseFailure_closed (window w) (by rw [hw]; exact hopen) (by rw [hw]; exact closed) x
  have before := recorded.trans (by simp) flushed
  have tickets : t.ticketOf = s.ticketOf := funext before.tickets
  rw [tickets, before.side.time] at ended
  simp only [sameEnded] at ended
  rw [portDown_eq, hu, ht]
  refine ⟨before.trans (fun i hi hrest => ?_) ended, fun q => ?_, fun w => ?_⟩
  · rw [List.map_map, Function.comp_def, List.map_id'] at hi
    simp only [List.map_flatMap, map_fst_heldEnds] at hrest
    obtain ⟨w, _, hw⟩ := List.mem_flatMap.mp hrest
    have works := worksFor_iff.mp ((mem_flushAnswers hs).mp hi)
    rw [place_of_endedList hs hw] at works
    simp at works
  · rw [State.port, calms.ports quiet]
    refine (ports q).trans ?_
    rw [samePort, samePort]
  · rw [emptied, drains, window, list]
    simp

end

/-- The stage of an entry in a hold list has no route (R61). -/
theorem stage_of_held {e : Entry} {v : Live} {w : WindowIdx} (hv : e.live = some v) (h : e.place = some (.held w)) :
    v.stage = .held := by
  rw [place_of_live hv, Live.place] at h
  cases hs : v.stage with
  | held => rfl
  | queued r | sent r | replying r st d => rw [hs] at h; simp at h

/-- Settles O31: what ends where the port closes, read off entry by entry. -/
theorem flushEndsThePortsTraffic : Obligations.FlushEndsThePortsTraffic := by
  unfold Obligations.FlushEndsThePortsTraffic
  intro st cause p s placed admitted notOff notDown hst b reads writes drains ending ended records room u
  have isOpen : (s.port p).state.accepts = true := by
    rw [← Bool.not_eq_false, accepts_eq_false_iff]
    exact not_or.mpr ⟨notOff, notDown⟩
  obtain ⟨ends, ports, lists⟩ := ended_portDown placed admitted isOpen (accepts_eq_false_iff.mpr hst) cause
  have stands : ∀ q i, i ∈ s.sentOf q → (s.entry i).place = some (.sent q) := fun q i hi =>
    (placed.mem_iff (x := .sent q)).mp hi
  refine ⟨(ports p).trans (if_pos rfl), fun q hq => (ports q).trans (if_neg (Ne.symm hq)), ends.log.log, ends.log.dropped,
    ?lane, lists, fun i v hv works => ?works, fun w h i v hh hb hv => ?held, fun i hheld hfree => ?others, ?sent,
    fun q hq => ?otherSent, ends.side.windows, ends.side.ingress, ends.side.decoder, ends.side.trunk, ends.side.trunkState,
    ends.side.time⟩
  case lane =>
    rw [ends.lane, map_fst_closingEnds, ← List.append_assoc]
    rfl
  case works =>
    refine ends.answered i _ v (List.mem_append_left _ ?_) hv
    exact List.mem_map.mpr ⟨i, (mem_flushAnswers placed).mpr works, rfl⟩
  case held =>
    have listed : (i, (ending w h).2) ∈ heldEnds (s.closedFailure w) (s.endedList p w) :=
      List.mem_flatMap.mpr ⟨h, hh, by rw [hb]; exact List.mem_singleton_self _⟩
    have reads : i ∈ heldReads (s.endedList p w) := by
      rw [← map_fst_heldEnds (s.closedFailure w)]
      exact List.mem_map_of_mem listed
    have answered := ends.answered i _ v
      (List.mem_append_right _ (List.mem_flatMap.mpr ⟨w, List.mem_finRange w, listed⟩)) hv
    rw [stage_of_held hv (place_of_endedList placed reads)] at answered
    exact answered
  case others =>
    refine ends.others i fun hi => ?_
    rcases (mem_closingEnds placed).mp hi with works | ⟨w, hw⟩
    · rw [hfree] at works; cases works
    · exact hheld w hw
  case sent =>
    rw [ends.sent, List.filter_eq_nil_iff]
    intro i hi
    have works := worksFor_iff.mpr (.inr (stands p i hi))
    simpa using (mem_closingEnds placed).mpr (.inl works)
  case otherSent =>
    rw [ends.sent, List.filter_eq_self]
    intro i hi
    rw [decide_eq_true_eq, mem_closingEnds placed, worksFor_iff, stands q i hi]
    rintro (works | ⟨w, hw⟩)
    · simp [hq] at works
    · have place := place_of_endedList placed hw
      rw [stands q i hi] at place
      cases place

end Sys2Proof.Machine
end

section
/-! The deadlines of a training and of a ticket, and the transmission of a branch egress queue's head: each is its operation
carried out once, with the tests of its command decided by the state's items. -/

namespace Sys2Proof.Machine

-- The theorems are checked one after the other, which bounds the memory that the check takes.
set_option Elab.async false

/-- While POR_N is high, what a command does is done. -/
theorem whenPowered_of_high {s : State} (h : s.porN = true) (f : State → State) : whenPowered f s = f s := if_pos h

/-! ### Trainings -/

/-- A port that has entered TRAINING and transmitted its first SYNC (R86, R87, R111). -/
def PortBlock.trained (b : PortBlock) (now : Time) : PortBlock :=
  { b with
    state := .training, dozeRequested := false, answer := none, wake := none, idle := none
    dozeReqDue := false, wakeDue := false
    link := { b.link with
      retry := none, syncAckDue := false, creditPending := false, syncDue := false
      transmitting := some (.sync (BitVec.ofNat 8 (2 - b.buffer.length)) 4)
      framesOut := b.link.framesOut + 1, consumedA := 0, consumedB := 0, syncsSent := 1
      resend := some (now + 100) } }

theorem dueSync_of_free {l : Link} {s : State} (h : (s.linkEnd l).transmitting = none) : dueSync l s = sendSync l s := by
  rw [dueSync, State.txFree, h]; rfl

theorem dueSync_of_busy {l : Link} {s : State} (h : (s.linkEnd l).transmitting ≠ none) :
    dueSync l s = s.setLink l { s.linkEnd l with syncDue := true, resend := none } := by
  have busy : s.txFree l = false := Option.isNone_eq_false_iff.mpr (Option.isSome_iff_ne_none.mpr h)
  rw [dueSync, busy]; rfl

/-- A port whose transmitter is free enters TRAINING with its first SYNC on the wire (R87). -/
theorem startTraining_branch {s : State} {p : PortIdx} (h : (s.port p).link.transmitting = none) :
    startTraining (.branch p) s = s.setPort p ((s.port p).trained s.time) := by
  rw [startTraining, dueSync_of_free (by simp [setTraining, h])]
  simp [sendSync, setTraining, LinkEnd.transmit, PortBlock.trained, State.freeA, State.freeB, Config.bufferSlots,
    Config.resultSlots, Config.resendInterval]

/-- The trunk with a free transmitter enters TRAINING with its first SYNC on the wire (R87). -/
theorem startTraining_trunk {s : State} (h : s.trunk.transmitting = none) :
    startTraining .trunk s = { s with
      trunkState := .training
      trunk := { s.trunk with
        retry := none, syncAckDue := false, creditPending := false, syncDue := false
        transmitting := some (.sync (BitVec.ofNat 8 (16 - s.ingressCount false)) (BitVec.ofNat 8 (8 - s.ingressCount true)))
        framesOut := s.trunk.framesOut + 1, consumedA := 0, consumedB := 0, syncsSent := 1
        resend := some (s.time + 100) } } := by
  rw [startTraining, dueSync_of_free (by simp [setTraining, h]), ingressCount_false, ingressCount_true]
  simp [sendSync, setTraining, LinkEnd.transmit, State.freeA, State.freeB, Config.ingressWrites, Config.ingressReads,
    Config.resendInterval]

/-- Settles O8: both deadlines come down to `dueSync`, whose two cases are the free and the busy transmitter. -/
theorem trainingDeadlinesSendSyncs : Obligations.TrainingDeadlinesSendSyncs := by
  unfold Obligations.TrainingDeadlinesSendSyncs
  intro s hpor
  have retried : ∀ l, exec (.retryDeadline l) s = .next (retryReached l s) :=
    fun l => congrArg Host.Outcome.next (whenPowered_of_high hpor _)
  refine ⟨fun l => ?_, fun hdown hdue hfree => ?_, fun p => ?_⟩
  · intro e htrain hdue hroom
    have resent : exec (.resendDeadline l) s = .next (dueSync l s) := by
      show Host.Outcome.next (whenPowered (resendReached l) s) = _
      have more : (s.linkEnd l).syncsSent < Config.maxSyncs := hroom
      rw [whenPowered_of_high hpor, resendReached, htrain, hdue, Bool.and_self, if_pos rfl, if_pos more]
    rw [resent]
    refine ⟨fun hfree => ?_, fun hbusy => ?_⟩
    · rw [dueSync_of_free hfree]; rfl
    · rw [dueSync_of_busy hbusy]
  · have down : s.linkDown .trunk = true := beq_iff_eq.mpr hdown
    simp only [retried, retryReached, down, State.linkEnd_trunk, hdue, Bool.and_self, if_true]
    rw [startTraining_trunk hfree]
  · intro b hdown hdue hfree
    have down : s.linkDown (.branch p) = true := beq_iff_eq.mpr hdown
    have due : s.reached (s.port p).link.retry = true := hdue
    simp only [retried, retryReached, down, State.linkEnd_branch, due, Bool.and_self, if_true]
    rw [startTraining_branch hfree]
    rfl

/-! ### The head of a branch egress queue -/

/-- In UP, with nothing ahead of it and with credit, the head of the queue is what the transmitter takes (R95, R109). -/
theorem egressReady_head {s : State} {p : PortIdx} {q : Queued} {rest : List Queued} (hup : (s.port p).state = .up)
    (hq : (s.port p).queue = q :: rest) (htx : (s.port p).link.transmitting = none)
    (hack : (s.port p).link.syncAckDue = false) (hcredit : (s.port p).link.creditPending = false)
    (hwake : (s.port p).wakeDue = false) (hc : (s.port p).link.credit q.body.cls ≠ 0) : s.egressReady p = some q := by
  have ready : branchReady s p = true := by simp [branchReady, State.txFree, State.controlDue, htx, hack, hcredit]
  simp only [State.egressReady, hq, hup, ready, hwake, hc, ne_eq, not_false_eq_true, Bool.not_false, and_self, if_true]

/-- A READ that leaves its queue joins its port's sent order (R68). -/
theorem markSent_queued {s : State} {p : PortIdx} {i : EntryIdx} {v : Live} {r : Route} (hv : (s.entry i).live = some v)
    (hr : v.stage = .queued r) : markSent p (.read i) s =
      (s.setEntry i ⟨(s.entry i).epoch, some { v with stage := .sent r }⟩).setSentOf p (s.sentOf p ++ [i]) := by
  simp only [markSent, hv, hr, setStage_live hv]

/-- Settles O11: the head is what the transmitter takes, and its body decides the frame and whether an entry goes to SENT. -/
theorem branchEgressTransmitsItsHead : Obligations.BranchEgressTransmitsItsHead := by
  unfold Obligations.BranchEgressTransmitsItsHead
  intro p s q rest b hpor hup hq htx hack hcredit hwake
  have sent : b.link.credit q.body.cls ≠ 0 → exec (.branchEgressTransmit p) s = .next (sendEgress p q s) := by
    intro hc
    show Host.Outcome.next (whenPowered _ s) = _
    rw [whenPowered_of_high hpor, egressReady_head hup hq htx hack hcredit hwake hc]
  have tail : (s.port p).queue.tail = rest := by rw [hq]; rfl
  refine ⟨fun data hb hc => ?_, fun i v r hb hv hr hc => ?_⟩
  · rw [sent (by rw [hb]; exact hc)]
    simp only [sendEgress, State.modPort_eq, tail, hb, State.requestTx, markSent]
    rfl
  · rw [sent (by rw [hb]; exact hc)]
    simp only [sendEgress, State.modPort_eq, tail, hb, State.requestTx, State.branchTicket, Nat.mul_comm i.val 4]
    rw [markSent_queued (s := s.setPort p _) hv hr]
    rfl

/-! ### The deadline of a ticket -/

/-- A READ that the router still works on is answered EXPIRED, with a record (R72). -/
theorem expire_live {s : State} {i : EntryIdx} {v : Live} (hv : (s.entry i).live = some v) (hr : v.stage.isReplying = false) :
    expire i v s = recordFault .expired .tickets v.window (some v.ticket) (some v.address) none
      (s.answered i v .expired []) := by
  rw [expire, toReplying_live hv hr]

/-- Settles O27: the stage of the entry decides what its deadline does. -/
theorem ticketDeadlineExpiresTheRead : Obligations.TicketDeadlineExpiresTheRead := by
  unfold Obligations.TicketDeadlineExpiresTheRead
  intro i s v hpor hv hdue expired
  have reached : exec (.ticketDeadline i) s = .next (ticketReached i s) :=
    congrArg Host.Outcome.next (whenPowered_of_high hpor _)
  have ended : v.stage.isReplying = false → ∀ u : State, u.entry i = s.entry i → expire i v u = expired u :=
    fun hr u hu => expire_live (by rw [hu, hv]) hr
  refine ⟨fun r hst => ?_, fun r hst => ?_, fun w hst hw => ?_, fun r st data hst => ?_⟩
  · rw [reached]
    simp only [ticketReached, hv, hdue, hst, if_true]
    rw [ended (by rw [hst]; rfl) s rfl]
  · rw [reached]
    simp only [ticketReached, hv, hdue, hst, if_true]
    rw [ended (by rw [hst]; rfl) _ (by simp [removeQueued])]
    rfl
  · rw [reached]
    simp only [ticketReached, hv, hdue, hst, hw, if_true]
    rw [ended (by rw [hst]; rfl) _ (by simp [removeHeld]), examineHeads_window]
    have window : (expired (removeHeld w i s)).window w = s.window w := by
      simp only [expired, recordFault_window]
      rfl
    rw [window]
    rfl
  · rw [reached]
    simp only [ticketReached, hv, hdue, hst, if_true]

end Sys2Proof.Machine
end

section
/-! The first control group and the commands of a branch port, written at a free decoder (R104 to R106): which fields the
four bytes carry, and what each field does to its port. -/

namespace Sys2Proof.Machine

-- The theorems are checked one after the other, which bounds the memory that the check takes.
set_option Elab.async false

/-! ### The fields that four bytes carry -/

/-- A WRITE that ends before the end of a field does not cover it. -/
theorem fieldOf_beyond {at' field size : Nat} {data : List Byte} (h : at' + data.length < field + size) :
    fieldOf at' data field size = none := if_neg fun hc => by omega

/-- A WRITE that begins after a field does not cover it. -/
theorem fieldOf_before {at' field size : Nat} {data : List Byte} (h : field < at') : fieldOf at' data field size = none :=
  if_neg fun hc => by omega

section
variable (x y : Byte) (k : BitVec 16)

@[simp] theorem length_controlGroup : (controlGroup x y k).length = 4 := by simp [controlGroup]

@[simp] theorem length_commandGroup : (commandGroup x).length = 4 := rfl

/-- The first control group carries its three fields: enable, upstream write enable and interval (R189). -/
theorem fieldOf_controlGroup : fieldOf 0 (controlGroup x y k) 0x00 1 = some x.toNat ∧
    fieldOf 0 (controlGroup x y k) 0x01 1 = some y.toNat ∧ fieldOf 0 (controlGroup x y k) 0x02 2 = some k.toNat := by
  have covered : ∀ field size, field + size ≤ 4 → fieldOf 0 (controlGroup x y k) field size =
      some (beNat (((controlGroup x y k).drop field).take size)) := by
    intro field size h
    simp [fieldOf, h]
  have interval : ((controlGroup x y k).drop 2).take 2 = beBytes 2 k.toNat := rfl
  refine ⟨?_, ?_, ?_⟩
  · rw [covered _ _ (by decide)]
    exact congrArg some (beNat_singleton x)
  · rw [covered _ _ (by decide)]
    exact congrArg some (beNat_singleton y)
  · rw [covered _ _ (by decide), interval, beNat_beBytes, Nat.mod_eq_of_lt (show k.toNat < 256 ^ 2 from k.isLt)]

/-- A command group carries its code. -/
theorem fieldOf_commandGroup : fieldOf 8 (commandGroup x) 0x08 1 = some x.toNat := by
  exact congrArg some (beNat_singleton x)

/-- The values of the first control group are in their ranges (R172). -/
theorem validFields_controlGroup (p : PortIdx) : validFields (.port p) 0 (controlGroup x y k) =
    decide (x.toNat ≤ 1 ∧ y.toNat ≤ 1 ∧ k.toNat ≤ 255) := by
  obtain ⟨enable, upWrite, interval⟩ := fieldOf_controlGroup x y k
  simp only [validFields, enable, upWrite, interval, fieldOf_beyond (at' := 0) (data := controlGroup x y k)
    (field := 0x04) (size := 2) (by simp), fieldOf_beyond (at' := 0) (data := controlGroup x y k)
    (field := 0x08) (size := 1) (by simp), fieldIs, Bool.and_true, Bool.decide_and, Bool.and_assoc]

/-- A command code is in its range (R172). -/
theorem validFields_commandGroup (p : PortIdx) (h : x.toNat ≤ 3) : validFields (.port p) 8 (commandGroup x) = true := by
  simp only [validFields, fieldOf_commandGroup, fieldOf_before (at' := 8) (data := commandGroup x) (field := 0x00) (size := 1)
    (by decide), fieldOf_before (at' := 8) (data := commandGroup x) (field := 0x01) (size := 1) (by decide),
    fieldOf_before (at' := 8) (data := commandGroup x) (field := 0x02) (size := 2) (by decide),
    fieldOf_before (at' := 8) (data := commandGroup x) (field := 0x04) (size := 2) (by decide), fieldIs, Bool.true_and]
  exact decide_eq_true h

end

/-- Counters that lie behind the data of a WRITE are left. -/
theorem clearCounters_beyond {at' base : Nat} {data : List Byte} (h : at' + data.length < base + 4) (l : Link) (s : State) :
    clearCounters at' data base l s = s := by
  simp only [clearCounters, clearCounter, fieldOf_beyond (at' := at') (data := data) (field := base) (size := 4) h,
    fieldOf_beyond (at' := at') (data := data) (field := base + 4) (size := 4) (by omega),
    fieldOf_beyond (at' := at') (data := data) (field := base + 8) (size := 4) (by omega),
    fieldOf_beyond (at' := at') (data := data) (field := base + 12) (size := 4) (by omega), withField]

theorem decide_toNat_eq_one (y : Byte) : decide (y.toNat = 1) = (y == 1) := by
  rw [Bool.eq_iff_iff, decide_eq_true_iff, beq_iff_eq]
  exact ⟨fun h => BitVec.eq_of_toNat_eq h, fun h => by rw [h]; rfl⟩

/-- The first control group of a port: the enable, then the upstream write enable, then the interval. -/
theorem writePort_controlGroup (p : PortIdx) (x y : Byte) (k : BitVec 16) (s : State) :
    writePort p 0 (controlGroup x y k) s = writeInterval p k
      ((writeEnable p (x == 1) s).modPort p fun b => { b with upWriteEnable := y == 1 }) := by
  obtain ⟨enable, upWrite, interval⟩ := fieldOf_controlGroup x y k
  have beyond : ∀ field size, 4 < field + size → fieldOf 0 (controlGroup x y k) field size = none :=
    fun field size h => fieldOf_beyond (by simpa using h)
  simp only [writePort, enable, upWrite, interval, beyond 0x04 2 (by decide), beyond 0x10 8 (by decide),
    beyond 0x2C 4 (by decide), beyond 0x08 1 (by decide), withField, BitVec.ofNat_toNat, BitVec.setWidth_eq,
    decide_toNat_eq_one]
  exact clearCounters_beyond (by simp) ..

/-- A command group of a port: its command alone. -/
theorem writePort_commandGroup (p : PortIdx) (x : Byte) (s : State) :
    writePort p 8 (commandGroup x) s = portCommand p x.toNat s := by
  have before : ∀ field size, field < 8 → fieldOf 8 (commandGroup x) field size = none :=
    fun field size h => fieldOf_before h
  have beyond : ∀ field size, 12 < field + size → fieldOf 8 (commandGroup x) field size = none :=
    fun field size h => fieldOf_beyond (by simpa using h)
  have counters : ∀ u, clearCounters 8 (commandGroup x) 0x1C (.branch p) u = u :=
    fun u => clearCounters_beyond (by simp) ..
  simp only [writePort, before 0x00 1 (by decide), before 0x01 1 (by decide), before 0x02 2 (by decide),
    before 0x04 2 (by decide), beyond 0x10 8 (by decide), beyond 0x2C 4 (by decide), fieldOf_commandGroup, counters, withField]

/-! ### The WRITE at a free decoder -/

/-- Four bytes in front of the upstream offset lie in the record of their port (R171). -/
theorem writeForm_port (p : PortIdx) {k : Nat} (h4 : k % 4 = 0) (hk : k + 4 ≤ 0x10) :
    writeForm ((RecordId.port p).offset + k) 4 = some (.port p, k) := by
  have form : readForm ((RecordId.port p).offset + k) 4 = some (.port p, k) :=
    (readForm_eq_some_iff (by decide)).mpr ⟨by simp only [RecordId.offset]; omega, by decide, by omega,
      by simp only [RecordId.size]; omega, by omega⟩
  have whole : wholeField k 4 0x10 8 = true := by simp [wholeField, hk]
  simp only [writeForm, form, whole, if_true]

theorem port_offset_lt (p : PortIdx) : (RecordId.port p).offset + 8 < 0x10000 := by
  have := p.isLt
  simp only [RecordId.offset]
  omega

section
variable {s : State} (h : s.hostReady) (p : PortIdx)
include h

/-- A command of a port at a free decoder is carried out at its arrival (R106). -/
theorem hostWrite_portCommand (x : Byte) (hx : x.toNat ≤ 3) :
    hostWrite ((RecordId.port p).offset + 0x08) (commandGroup x) s = serveClaims (portCommand p x.toNat s.writeTaken) := by
  rw [hostWrite_applied h (port_offset_lt p) (by simp) (by simp)
    (by rw [length_commandGroup]; exact writeForm_port p (by decide) (by decide)) (validFields_commandGroup x p hx)]
  simp only [applyRecord, writePort_commandGroup]

/-- The first control group of a port at a free decoder is written at its arrival, if its values are in their ranges: the
enable leads to `u`, in which the other two fields are replaced. -/
theorem hostWrite_controlGroup {x y : Byte} {k : BitVec 16} (hv : x.toNat ≤ 1 ∧ y.toNat ≤ 1 ∧ k.toNat ≤ 255) {u : State}
    (hu : writeEnable p (x == 1) s.writeTaken = u) : hostWrite (RecordId.port p).offset (controlGroup x y k) s =
      serveClaims (writeInterval p k (u.setPort p { u.port p with upWriteEnable := y == 1 })) := by
  have form : writeForm (RecordId.port p).offset (controlGroup x y k).length = some (.port p, 0) := by
    rw [length_controlGroup]
    exact writeForm_port p (k := 0) (by decide) (by decide)
  rw [hostWrite_applied h (by have := port_offset_lt p; omega) (by simp) (by simp) form
    ((validFields_controlGroup x y k p).trans (decide_eq_true hv))]
  simp only [applyRecord, writePort_controlGroup, hu, State.modPort_eq]

/-- A first control group with a value out of its range is discarded with MGMT_FORM (R172, R173). -/
theorem hostWrite_controlGroup_invalid {x y : Byte} {k : BitVec 16} (hv : ¬(x.toNat ≤ 1 ∧ y.toNat ≤ 1 ∧ k.toNat ≤ 255)) :
    hostWrite (RecordId.port p).offset (controlGroup x y k) s = recordFault .mgmtForm .management none none
      (some (s.apertureBase + BitVec.ofNat 40 (RecordId.port p).offset)) none s.writeTaken := by
  have inside := port_offset_lt p
  have form : writeForm (RecordId.port p).offset 4 = some (.port p, 0) := writeForm_port p (k := 0) (by decide) (by decide)
  have invalid : validFields (.port p) 0 (controlGroup x y k) = false :=
    (validFields_controlGroup x y k p).trans (decide_eq_false hv)
  have noWindow : windowAt (RecordId.port p).offset = none := by
    have := p.isLt
    exact if_neg (by simp only [RecordId.offset]; omega)
  obtain ⟨_, _, _, _, _, base⟩ := id h
  have offset : s.writeTaken.offsetOf (s.apertureBase + BitVec.ofNat 40 (RecordId.port p).offset) = (RecordId.port p).offset :=
    (aperture_offset (s := s.writeTaken) base (by omega)).2
  rw [hostWrite_hostReady h (by omega) (by simp) (by simp)]
  simp only [manageWrite, offset, length_controlGroup, form, invalid, mgmtForm, noWindow, Bool.false_eq_true, if_false,
    serveClaims_recordFault]

end

/-! ### Ports that stay out of UP -/

theorem notUp_of_grant {b c : PortBlock} (h : PortGrant b c) (hb : b.state ≠ .up) : c.state ≠ .up := by
  rcases h.state with same | ⟨up, _⟩
  · rwa [same]
  · exact absurd up hb

theorem notUp_withRequest {b : PortBlock} (hb : b.state ≠ .up) (q : Queued) (now : Time) : (b.withRequest q now).state ≠ .up := by
  unfold PortBlock.withRequest
  split
  case h_1 => exact PortState.noConfusion
  all_goals exact hb

/-- A released head takes no port to UP. -/
theorem notUp_release {s : State} {p : PortIdx} (h : (s.port p).state ≠ .up) (w : WindowIdx) :
    ((release w s).port p).state ≠ .up := by
  unfold release
  split
  · exact h
  · rename_i x rest _
    simp only [port_placeEgress]
    split
    · rename_i hp
      refine notUp_withRequest ?_ _ _
      rw [hp]
      cases x.body <;> exact h
    · cases x.body <;> exact h

/-- Grants of a port's slots take no port to UP. -/
theorem notUp_grantWindows {s : State} {p : PortIdx} (h : (s.port p).state ≠ .up) (q : PortIdx) :
    ((grantWindows q s).port p).state ≠ .up := by
  have loop : ∀ (n : Nat) (u : State), (u.port p).state ≠ .up → ((grantLoop q n u).port p).state ≠ .up := by
    intro n
    induction n with
    | zero => exact fun _ hu => hu
    | succ n ih =>
      intro u hu
      simp only [grantLoop]
      split
      · split
        · rename_i w _
          exact ih _ (notUp_of_grant (examineHeads_port w _ p) (notUp_release hu w))
        · exact hu
      · exact hu
  exact loop _ s h

/-- A port that leaves for OFF or DOWN without a cause is silenced, whatever its draining lists then lose (R111). -/
theorem port_portDown (st : PortState) (p : PortIdx) (s : State) :
    (portDown st none p s).port p = (s.port p).silence st := by
  have flushed : (flush st p s).port p = (s.port p).silence st := by
    have silent : (flushed st p s).port p = (s.port p).silence st := by rw [port_flushed, if_pos rfl]
    rw [flush_eq]
    split
    · exact silent
    · exact ((recordFault_port ..).still (by rw [silent]; rfl)).trans silent
  have examined : ∀ (ws : List WindowIdx) (u : State), u.port p = (s.port p).silence st →
      (ws.foldl (examineOf p) u).port p = (s.port p).silence st := by
    intro ws
    induction ws with
    | nil => exact fun _ hu => hu
    | cons w ws ih =>
      intro u hu
      refine ih _ ?_
      unfold examineOf
      split
      · exact ((examineHeads_port w u p).still (by rw [hu]; rfl)).trans hu
      · exact hu
  exact examined _ _ flushed

/-- The interval of a port is replaced, and in UP and idle its idle time starts anew (R113). -/
theorem writeInterval_eq (p : PortIdx) (k : BitVec 16) (s : State) : writeInterval p k s = s.setPort p { s.port p with
    autoDoze := k
    idle := if (s.port p).state = .up ∧ s.portIdle p = true then
        (if k = 0 then none else some (s.time + k.setWidth 32 * 1000))
      else (s.port p).idle } := by
  have idle : (s.setPort p { s.port p with autoDoze := k }).portIdle p = s.portIdle p := by simp [State.portIdle]
  simp only [writeInterval, State.modPort_eq, State.port_setPort_self, idle]
  split
  · simp [State.idleFrom]
  · rfl

/-- A claimant that waits after a write of the port's own items has waited before: a free decoder has none. -/
theorem serveClaims_setPort_writeTaken {s : State} (h : s.hostReady) {p : PortIdx} {b : PortBlock}
    (hb : b.buffer = (s.port p).buffer) : serveClaims (s.writeTaken.setPort p b) = s.writeTaken.setPort p b := by
  refine serveClaims_afterTaking h rfl rfl rfl rfl rfl fun k => ?_
  rw [State.port_setPort]
  split
  · rename_i hk
    rw [hb, hk]
  · rfl

/-- Settles O46: the fields by `writePort_controlGroup`, the enable by the state of the port. -/
theorem portControlGroupWrites : Obligations.PortControlGroupWrites := by
  unfold Obligations.PortControlGroupWrites
  intro s p x y k c h hc b fields good
  have row : exec c s = .next (hostWrite (RecordId.port p).offset (controlGroup x y k) s) := by
    rcases hc with rfl | rfl <;> rfl
  rw [row]
  obtain ⟨_, _, _, noFrame, _, _⟩ := id h
  have leaving : ∀ u : State, good → writeEnable p (x == 1) s.writeTaken = u → (u.port p).state ≠ .up →
      u.ingress = s.ingress → hostWrite (RecordId.port p).offset (controlGroup x y k) s = settle (fields u) := by
    intro u hv hu notUp same
    have empty : (fields u).ingress = [] := same.trans noFrame
    rw [hostWrite_controlGroup h p hv hu, writeInterval_eq, settle_empty empty]
    simp [fields, notUp]
  refine ⟨fun hv => ?_, fun hv hx hoff htx => ?_, fun hv hx hon => ?_, fun hv hsame => ?_⟩
  · rw [hostWrite_controlGroup_invalid h p hv]
    rfl
  · have enabled : writeEnable p (x == 1) s.writeTaken = grantWindows p (s.writeTaken.setPort p (b.trained s.time)) := by
      have off : (s.writeTaken.port p).state = .off := hoff
      have trained := startTraining_branch (s := s.writeTaken) (p := p) htx
      simp only [writeEnable, hx, off, trained]
      rfl
    rw [leaving _ hv enabled (notUp_grantWindows (by simp [PortBlock.trained]) p) (grantWindows_branchSide p _).ingress]
    rfl
  · have disabled : writeEnable p (x == 1) s.writeTaken = portDown .off none p s.writeTaken := by
      have on : (s.writeTaken.port p).state ≠ .off := hon
      rw [hx]
      exact (if_neg (by decide)).trans (if_neg on)
    rw [leaving _ hv disabled (by rw [port_portDown]; exact PortState.noConfusion) (portDown_branchSide ..).ingress]
  · have left : writeEnable p (x == 1) s.writeTaken = s.writeTaken := by
      rcases hsame with ⟨hx, hon⟩ | ⟨hx, hoff⟩
      · have on : (s.writeTaken.port p).state ≠ .off := hon
        rw [hx]
        exact (if_pos (by decide)).trans (if_neg on)
      · have off : (s.writeTaken.port p).state = .off := hoff
        rw [hx]
        exact (if_neg (by decide)).trans (if_pos off)
    have idle : (s.writeTaken.setPort p { b with upWriteEnable := y == 1 }).portIdle p = s.portIdle p := by
      simp [State.portIdle, b]
    have written : writeInterval p k (s.writeTaken.setPort p { b with upWriteEnable := y == 1 }) = s.writeTaken.setPort p
        { b with
          upWriteEnable := y == 1, autoDoze := k
          idle := if b.state = .up ∧ s.portIdle p = true then
              (if k = 0 then none else some (s.time + k.setWidth 32 * 1000))
            else b.idle } := by
      rw [writeInterval_eq, idle]
      simp
    exact congrArg Host.Outcome.next ((hostWrite_controlGroup h p hv left).trans
      ((congrArg serveClaims written).trans (serveClaims_setPort_writeTaken h rfl)))

/-- Settles O47: each command by the state of its port. -/
theorem portCommands : Obligations.PortCommands := by
  unfold Obligations.PortCommands
  intro s p h b ignored
  obtain ⟨_, _, _, noFrame, _, _⟩ := id h
  have quiet : ∀ c : PortBlock, c.buffer = b.buffer → serveClaims (s.writeTaken.setPort p c) = s.writeTaken.setPort p c :=
    fun c hc => serveClaims_setPort_writeTaken h hc
  have resultIdle : ∀ r, (setResult p r s.writeTaken).portIdle p = s.portIdle p := fun r => by
    simp [setResult, State.portIdle]
  have doze : exec (.dozeCommand p) s = .next (serveClaims (commandDoze p s.writeTaken)) :=
    congrArg Host.Outcome.next (hostWrite_portCommand h p 1 (by decide))
  have wake : exec (.wakeCommand p) s = .next (serveClaims (commandWake p s.writeTaken)) :=
    congrArg Host.Outcome.next (hostWrite_portCommand h p 2 (by decide))
  have reset : exec (.portResetCommand p) s = .next (serveClaims (commandReset p s.writeTaken)) :=
    congrArg Host.Outcome.next (hostWrite_portCommand h p 3 (by decide))
  refine ⟨fun hup hidle => ?_, fun hup hbusy => ?_, fun hno => ?_, fun hdoze => ?_, fun hno => ?_, fun hoff => ?_, fun hon => ?_⟩
  · have up : (s.writeTaken.port p).state = .up := hup
    have idle : (setResult p .accepted s.writeTaken).portIdle p = true := (resultIdle .accepted).trans hidle
    rw [doze, commandDoze, if_pos up]
    simp only [idle, if_true]
    simp only [enterDozeWait, setResult, State.modPort_eq, State.port_setPort_self, State.setPort_setPort]
    exact congrArg Host.Outcome.next (quiet _ rfl)
  · have up : (s.writeTaken.port p).state = .up := hup
    have busy : (setResult p .accepted s.writeTaken).portIdle p = false := (resultIdle .accepted).trans hbusy
    rw [doze, commandDoze, if_pos up]
    simp only [busy, Bool.false_eq_true, if_false]
    simp only [setResult, State.modPort_eq, State.port_setPort_self, State.setPort_setPort]
    exact congrArg Host.Outcome.next (quiet _ rfl)
  · rw [doze, commandDoze, if_neg (show (s.writeTaken.port p).state ≠ .up from hno)]
    exact congrArg Host.Outcome.next (quiet _ rfl)
  · rw [wake, commandWake, if_pos (show (s.writeTaken.port p).state = .doze from hdoze)]
    simp only [enterWaking, setResult, State.modPort_eq, State.modLink_eq, State.linkEnd_branch, State.setLink_branch,
      State.port_setPort_self, State.setPort_setPort]
    exact congrArg Host.Outcome.next (quiet _ rfl)
  · rw [wake, commandWake, if_neg (show (s.writeTaken.port p).state ≠ .doze from hno)]
    exact congrArg Host.Outcome.next (quiet _ rfl)
  · rw [reset, commandReset, if_pos (show (s.writeTaken.port p).state = .off from hoff)]
    exact congrArg Host.Outcome.next (quiet _ rfl)
  · intro u
    have silent : u.port p = PortBlock.silence .down { b with lastResult := .accepted } := by
      rw [port_portDown, State.port_setPort_self]
    have side := portDown_branchSide .down none p (s.writeTaken.setPort p { b with lastResult := .accepted })
    have time : u.time = s.time := side.time
    have ingress : u.ingress = [] := side.ingress.trans noFrame
    have command : commandReset p s.writeTaken = grantWindows p (startTraining (.branch p) u) :=
      if_neg (show (s.writeTaken.port p).state ≠ .off from hon)
    clear_value u
    have started : startTraining (.branch p) u = u.setPort p { u.port p with
        state := .training
        link := { (u.port p).link with
          transmitting := some (.sync (BitVec.ofNat 8 (2 - (u.port p).buffer.length)) 4)
          framesOut := (u.port p).link.framesOut + 1, consumedA := 0, consumedB := 0, syncsSent := 1
          resend := some (s.time + 100) } } := by
      rw [startTraining_branch (by rw [silent]; rfl), time, silent]
      rfl
    have empty : (grantWindows p (startTraining (.branch p) u)).ingress = [] := by
      rw [(grantWindows_branchSide p _).ingress, started]
      exact ingress
    rw [reset, command, ← started, settle_empty empty]

end Sys2Proof.Machine
end

section
/-! The decoder's head: what it waits for, and what becomes of it once it lacks nothing (R40 to R42, R48 to R58). The taking of
a frame leaves the frames behind it, so the run goes on with exactly these. -/

namespace Sys2Proof.Machine

-- The theorems are checked one after the other, which bounds the memory that the check takes.
set_option Elab.async false

/-! ### The frames behind the head -/

theorem ingress_withField {v : Option Nat} {f : Nat → State → State} (h : ∀ n s, (f n s).ingress = s.ingress) (s : State) :
    (withField v f s).ingress = s.ingress := by
  cases v with
  | none => rfl
  | some n => exact h n s

theorem ingress_startTraining (p : PortIdx) (s : State) : (startTraining (.branch p) s).ingress = s.ingress := by
  have due : ∀ u, (dueSync (.branch p) u).ingress = u.ingress := by
    intro u
    unfold dueSync
    split
    · exact State.setLink_ingress ..
    · exact State.setLink_ingress ..
  exact (due _).trans (State.setLink_ingress ..)

theorem ingress_writeWindow (w : WindowIdx) (data : List Byte) (a : HostAddr) (s : State) :
    (writeWindow w data a s).ingress = s.ingress := by
  have ended : ∀ (st : Status) (k : FaultKind) (u : State), (endAllHeld w st k u).ingress = u.ingress := by
    intro st k u
    have folded : ∀ (l : List Held) (x : State), (l.foldl (fun x h => endHeld st h x) x).ingress = x.ingress := by
      intro l
      induction l with
      | nil => exact fun _ => rfl
      | cons h l ih => exact fun x => (ih _).trans (endHeld_branchSide st h x).ingress
    simp only [endAllHeld]
    split
    · exact folded ..
    · rw [recordFault_ingress]
      exact folded ..
  unfold writeWindow
  split
  · rename_i r _
    simp only [applyWindow]
    split
    · split
      · exact ((examineHeads_branchSide ..).trans (grantWindows_branchSide ..)).ingress
      · rfl
      · exact ended ..
    · exact ended ..
  · exact recordFault_ingress ..

theorem ingress_clearCounters (at' : Nat) (data : List Byte) (base : Nat) (l : Link) (s : State) :
    (clearCounters at' data base l s).ingress = s.ingress := by
  have cleared : ∀ field f u, (clearCounter at' data field f l u).ingress = u.ingress :=
    fun field f u => ingress_withField (fun _ _ => by simp) u
  simp only [clearCounters, cleared]

theorem ingress_portCommand (p : PortIdx) (code : Nat) (s : State) : (portCommand p code s).ingress = s.ingress := by
  have doze : (commandDoze p s).ingress = s.ingress := by
    simp only [commandDoze]
    split
    · split <;> rfl
    · rfl
  have wake : (commandWake p s).ingress = s.ingress := by
    simp only [commandWake]
    split <;> rfl
  have reset : (commandReset p s).ingress = s.ingress := by
    simp only [commandReset]
    split
    · rfl
    · rw [(grantWindows_branchSide ..).ingress, ingress_startTraining, (portDown_branchSide ..).ingress]
      rfl
  unfold portCommand
  split
  · exact doze
  · split
    · exact wake
    · split
      · exact reset
      · rfl

theorem ingress_writePort (p : PortIdx) (at' : Nat) (data : List Byte) (s : State) :
    (writePort p at' data s).ingress = s.ingress := by
  have enabled : ∀ on u, (writeEnable p on u).ingress = u.ingress := by
    intro on u
    unfold writeEnable
    split
    · split
      · rw [(grantWindows_branchSide ..).ingress, ingress_startTraining]
      · rfl
    · split
      · rfl
      · exact (portDown_branchSide ..).ingress
  have interval : ∀ k u, (writeInterval p k u).ingress = u.ingress := fun k u => by rw [writeInterval_eq]; rfl
  exact (ingress_withField (fun _ _ => ingress_portCommand ..) _).trans ((ingress_withField (by intros; rfl) _).trans
    ((ingress_clearCounters ..).trans ((ingress_withField (by intros; rfl) _).trans
      ((ingress_withField (by intros; rfl) _).trans ((ingress_withField (fun _ _ => interval ..) _).trans
        ((ingress_withField (by intros; rfl) _).trans (ingress_withField (fun _ _ => enabled ..) _)))))))

/-- A management WRITE leaves the frames of the trunk ingress queue. -/
theorem ingress_manageWrite (a : HostAddr) (data : List Byte) (s : State) : (manageWrite a data s).ingress = s.ingress := by
  have form : (mgmtForm none (s.offsetOf a) a s).ingress = s.ingress := recordFault_ingress ..
  simp only [manageWrite]
  split
  · split
    · rename_i r at' _ _
      cases r with
      | window w => exact ingress_writeWindow ..
      | control =>
        simp [applyRecord, writeControl, ingress_withField, apply_ite State.ingress, clearRouter]
      | port p => exact ingress_writePort ..
      | trunk => exact ingress_clearCounters ..
      | line i =>
        have written : ∀ (g : Nat → State → EventLine) (v : Option Nat) (u : State),
            (withField v (fun n u => u.setLine i (g n u)) u).ingress = u.ingress :=
          fun g v u => ingress_withField (fun n x => State.setLine_ingress ..) u
        simp only [applyRecord, writeLine, serveClaims_ingress, written fun n u => (u.line i).command n,
          written fun n u => { u.line i with vector := byte n }, written fun n u => { u.line i with enable := n = 1 }]
      | logControl => simp [applyRecord, writeLogControl, ingress_withField, apply_ite State.ingress, popLog]
      | identity | routerTime | view i | logHead => rfl
    · exact form
  · exact form

/-- What becomes of a taken frame leaves the frames behind it. -/
theorem ingress_takeFate (f : HostFrame) (d : Fate) (s : State) : (takeFate f d s).ingress = s.ingress := by
  have allocated : ∀ (t : BitVec 6) (w : Option WindowIdx) (st : Stage) (next : EntryIdx → State → State),
      (∀ i u, (next i u).ingress = u.ingress) → (allocateFree f t w st next s).ingress = s.ingress := by
    intro t w st next h
    unfold allocateFree
    split
    · exact h ..
    · rfl
  cases d with
  | reuse => exact recordFault_ingress ..
  | management =>
    simp only [takeFate]
    split
    · simp only [manageRead]
      split
      · rfl
      · exact recordFault_ingress ..
    · exact ingress_manageWrite ..
  | failed k st w =>
    simp only [takeFate, takeFailed, recordFault_ingress]
    split
    · exact allocated _ _ _ _ fun _ _ => rfl
    · rfl
  | toHold w =>
    simp only [takeFate, takeHold]
    split
    · exact allocated _ _ _ _ fun _ _ => rfl
    · rfl
  | toQueue w =>
    simp only [takeFate, takeQueue]
    split
    · exact allocated _ _ _ _ fun _ _ => (placeEgress_branchSide ..).ingress
    · exact (placeEgress_branchSide ..).ingress

/-! ### The head at the end of a happening -/

theorem popHead_eq (f : HostFrame) (s : State) : popHead f s = s.headTaken f.body.isRead := by
  cases hb : f.body <;> simp [popHead, State.consume, State.headTaken, hb, HostBody.cls, HostBody.isRead, LinkEnd.consume,
    State.linkLive]

/-- A decoder that claims a slot and claims it again is as it was. -/
theorem claim_again {s : State} {c : Claim} (h : s.decoder.claim = c) :
    ({ s with decoder := { s.decoder with claim := c } } : State) = s := by
  subst h
  rfl

section
variable {s : State} {f : HostFrame} {rest : List HostFrame} {d : Fate}

/-- Where the arbiter has nothing to grant before the head's turn, a head that lacks no resource is taken, and the next
frame becomes head and is examined (R41, R53, R54). -/
theorem settle_taken (hs : s.stuck) (hi : s.ingress = f :: rest) (hd : s.fate f = d) (hc : s.canTake f d = true)
    (hg : d = .management → f.body.isRead = true → s.decoder.claim = .general) :
    settle s = decodeRun true (takeFate f d (s.headTaken f.body.isRead)) := by
  have still : serveClaims s = s := serveClaims_of_stuck hs
  have claimed : claimGeneral f d s = s := by
    unfold claimGeneral
    split
    · rename_i hm
      obtain ⟨hm, hr⟩ := hm
      rw [claim_again (hg hm hr), still]
    · rfl
  have behind : (takeFate f d (s.headTaken f.body.isRead)).ingress = rest := by
    rw [ingress_takeFate]
    simp [State.headTaken, hi]
  rw [settle, still, decodeRun, hi, decodeRun, behind]
  simp only [List.length_cons, decodeLoop, hi, hd, claimed, hc, if_true, takeFrame, popHead_eq]

/-- A head that still lacks a resource stays with its claim, its matching window and its deadline (R42, R53). -/
theorem settle_of_headWaits (ha : s.admitted) (hi : s.ingress = f :: rest) (hw : s.headWaits) : settle s = s := by
  have still : serveClaims s = s := serveClaims_of_admitted ha
  simp only [State.headWaits, hi] at hw
  obtain ⟨lacks, claim, window⟩ := hw
  have claimed : claimGeneral f (s.fate f) s = s := by
    unfold claimGeneral
    split
    · rename_i hm
      obtain ⟨hm, _⟩ := hm
      have general : s.decoder.claim = .general := by rw [claim, hm]; rfl
      rw [claim_again general, still]
    · rfl
  have waits : waitHead false f (s.fate f) s = s := by
    simp only [waitHead, ← claim, ← window]
    rfl
  rw [settle, still, decodeRun, hi]
  simp only [List.length_cons, decodeLoop, hi, claimed, lacks, Bool.false_eq_true, if_false, waits, still]

theorem stuck_of_admitted (h : s.admitted) : s.stuck := fun hg => .inl (by
  unfold State.nextClaimant
  rw [List.find?_eq_none]
  exact fun c _ => by simp [h hg c])

end

/-! ### The place of a request that passes its checks -/

section
variable {s : State} {f : HostFrame} {w : WindowIdx}

theorem fate_toHold (hfresh : s.fresh f) (hout : s.outside f.address) (hm : s.matchedBy f.address (some w))
    (hn : 1 ≤ f.length) (hd : s.decodeFault f.body.isRead f.address f.length (some w) = none)
    (hheld : (s.window w).mode = .hold ∨ s.holdList w ≠ []) : s.fate f = .toHold w :=
  (fate_passed hfresh hout hm hn hd).trans (if_pos hheld)

theorem fate_toQueue (hfresh : s.fresh f) (hout : s.outside f.address) (hm : s.matchedBy f.address (some w))
    (hn : 1 ≤ f.length) (hd : s.decodeFault f.body.isRead f.address f.length (some w) = none)
    (hpass : (s.window w).mode = .pass) (hempty : s.holdList w = []) : s.fate f = .toQueue w :=
  (fate_passed hfresh hout hm hn hd).trans (if_neg (by simp [hpass, hempty]))

/-- The port of a passed request in PASS is open, so that room in its queue is a slot to grant (R46, R108). -/
theorem egressFree_of_passed {isRead : Bool} {a : HostAddr} {n : Nat} {p : PortIdx}
    (hd : s.decodeFault isRead a n (some w) = none) (hpass : (s.window w).mode = .pass) (hp : (s.window w).portIdx = p)
    (hroom : (s.port p).queue.length < 8) : s.egressFree p = true := by
  have hst : ¬((s.port p).state = .off ∨ (s.port p).state = .down) := by
    intro hc
    simp only [State.decodeFault, hpass, hp, hc] at hd
    split at hd
    · cases hd
    · split at hd <;> simp at hd
  rw [← accepts_eq_false_iff, Bool.not_eq_false] at hst
  simp only [State.egressFree, hst, Bool.true_and]
  exact decide_eq_true hroom

theorem egressFree_of_full {p : PortIdx} (h : 8 ≤ (s.port p).queue.length) : s.egressFree p = false := by
  simp only [State.egressFree, Bool.and_eq_false_iff, decide_eq_false_iff_not]
  exact .inr (Nat.not_lt.mpr h)

theorem freeEntry_of_free {i : EntryIdx} (h : (s.entry i).live = none) : s.freeEntry.isSome = true := by
  rw [State.freeEntry, List.find?_isSome]
  exact ⟨i, List.mem_finRange i, by simp [h]⟩

theorem freeEntry_of_full (h : ∀ i, (s.entry i).live ≠ none) : s.freeEntry = none := by
  rw [State.freeEntry, List.find?_eq_none]
  exact fun i _ => by simpa [Option.isNone_iff_eq_none] using h i

/-- Outside the aperture the matching window is that of the frame's place or of its failed decode (R40). -/
theorem fate_window {m : Option WindowIdx} (hfresh : s.fresh f) (hout : s.outside f.address) (hm : s.matchedBy f.address m)
    (hn : 1 ≤ f.length) : (∃ k st, s.fate f = .failed k st m) ∨ ∃ w, m = some w ∧ (s.fate f = .toHold w ∨ s.fate f = .toQueue w) := by
  cases hd : s.decodeFault f.body.isRead f.address f.length m with
  | some x => exact .inl ⟨x.1, x.2, fate_failed hfresh hout hm hn hd⟩
  | none =>
    cases m with
    | none => simp [State.decodeFault] at hd
    | some w =>
      refine .inr ⟨w, rfl, ?_⟩
      rw [fate_passed hfresh hout hm hn hd]
      split
      · exact .inl rfl
      · exact .inr rfl

end

end Sys2Proof.Machine
end

section
/-! A head that lacks a resource waits, and one that lacks none is taken (R26, R40 to R42, R48 to R58). -/

namespace Sys2Proof.Machine

-- The theorems are checked one after the other, which bounds the memory that the check takes.
set_option Elab.async false

/-! ### The arrival of a frame that must wait -/

section
variable {s : State} (h : s.hostReady) {a : HostAddr} {d : Fate}
include h

/-- A READ that is no management request and lacks a resource waits from its arrival on. -/
theorem exec_hostRead_waits {t : BitVec 6} {n : Nat} (h1 : 1 ≤ n) (h2 : n ≤ 64) (hd : s.fate ⟨a, n, .read t⟩ = d)
    (hm : d ≠ .management) (hc : s.canTake ⟨a, n, .read t⟩ d = false) : exec (.trunkIngressFrame (hostRead t n a)) s =
      .next (s.headArrived ⟨a, n, .read t⟩ (s.claimFor ⟨a, n, .read t⟩ d) d.window) := by
  obtain ⟨valid, framed, frame⟩ := validRequest_hostRead (a := a) (t := t) h1 h2
  show Host.Outcome.next (receiveRequest (hostRead t n a) s) = _
  rw [receiveRequest_hostReady h valid framed, frame, hd, decide_wait h hm hc]

/-- A WRITE that is no management request and lacks a resource waits from its arrival on. -/
theorem exec_hostWriteFrame_waits {data : List Byte} (h1 : 1 ≤ data.length) (h2 : data.length ≤ 64)
    (hd : s.fate ⟨a, data.length, .write data⟩ = d) (hm : d ≠ .management)
    (hc : s.canTake ⟨a, data.length, .write data⟩ d = false) : exec (.trunkIngressFrame (hostWriteFrame a data)) s =
      .next (s.headArrived ⟨a, data.length, .write data⟩ (s.claimFor ⟨a, data.length, .write data⟩ d) d.window) := by
  obtain ⟨valid, framed, frame⟩ := validRequest_hostWriteFrame (a := a) h1 h2
  show Host.Outcome.next (receiveRequest (hostWriteFrame a data) s) = _
  rw [receiveRequest_hostReady h valid framed, frame, hd, decide_wait h hm hc]

/-- A management READ that finds the general queue full waits from its arrival on (R52). -/
theorem exec_manageRead_waits {t : BitVec 6} {n : Nat} (h1 : 1 ≤ n) (h2 : n ≤ 64)
    (hd : s.fate ⟨a, n, .read t⟩ = .management) (hg : s.generalFree = false) :
    exec (.trunkIngressFrame (hostRead t n a)) s = .next (s.headArrived ⟨a, n, .read t⟩ .general none) := by
  obtain ⟨valid, framed, frame⟩ := validRequest_hostRead (a := a) (t := t) h1 h2
  show Host.Outcome.next (receiveRequest (hostRead t n a) s) = _
  rw [receiveRequest_hostReady h valid framed, frame, hd, decide_manageRead_full rfl hg]

end

/-- A frame of the aperture without a live ticket is a management request (R44). -/
theorem fate_inside {s : State} {f : HostFrame} (hfresh : s.fresh f) (hin : ¬s.outside f.address) : s.fate f = .management := by
  refine fate_management (fun t ht => ?_) ?_
  · rw [Bool.eq_false_iff]
    exact fun hl => (ticketLive_iff.mp hl).elim fun j hj => hfresh t ht j hj
  · simp only [State.outside, not_or, Nat.not_lt] at hin
    simpa [State.inAperture] using hin

/-- The resources that a place needs (R49 to R51). -/
theorem canTake_toHold {s : State} {f : HostFrame} {w : WindowIdx} (he : s.entryFor f = true) (h : s.heldTotal < 16) :
    s.canTake f (.toHold w) = true := by
  simp only [State.canTake, he, Bool.true_and]
  exact decide_eq_true h

theorem canTake_toQueue {s : State} {f : HostFrame} {w : WindowIdx} {p : PortIdx} (he : s.entryFor f = true)
    (hp : (s.window w).portIdx = p) (h : s.egressFree p = true) : s.canTake f (.toQueue w) = true := by
  simp only [State.canTake, he, hp, h, Bool.and_self]

/-- The resources that a place lacks when its hold slots or its queue are full (R49 to R51). -/
theorem canTake_toHold_full {s : State} {f : HostFrame} {w : WindowIdx} (h : 16 ≤ s.heldTotal) :
    s.canTake f (.toHold w) = false := by
  simp only [State.canTake, Bool.and_eq_false_iff, decide_eq_false_iff_not]
  exact .inr (Nat.not_lt.mpr h)

theorem canTake_toQueue_full {s : State} {f : HostFrame} {w : WindowIdx} {p : PortIdx} (hp : (s.window w).portIdx = p)
    (h : 8 ≤ (s.port p).queue.length) : s.canTake f (.toQueue w) = false := by
  simp only [State.canTake, hp, egressFree_of_full h, Bool.and_false]

theorem claimFor_toQueue {s : State} {f : HostFrame} {w : WindowIdx} {p : PortIdx} (hp : (s.window w).portIdx = p)
    (h : s.entryFor f = true) : s.claimFor f (.toQueue w) = .egress p := by
  simp only [State.claimFor, h, hp, if_true]

/-! ### The head that lacks nothing -/

section
variable {s : State} {a : HostAddr} {n : Nat} {b : HostBody} {rest : List HostFrame} {m : Option WindowIdx} {w : WindowIdx}
  {p : PortIdx} {t : BitVec 6} {i : EntryIdx} {data : List Byte} {k : FaultKind} {st : Status}

/-- The state in which the READ at the head has been taken and has its entry (R54, R63). -/
def State.headEntered (s : State) (i : EntryIdx) (v : Live) : State :=
  (s.headTaken true).setEntry i ⟨(s.entry i).epoch + 1, some v⟩

/-- The entry that a READ is given at its taking (R61, R65). -/
def State.liveAt (s : State) (t : BitVec 6) (m : Option WindowIdx) (a : HostAddr) (n : Nat) (st : Stage) : Live :=
  ⟨t, m, a, n, s.time + s.ticketLifetime, st⟩

theorem allocateFree_headTaken (hfree : s.freeEntry = some i) (st : Stage) (next : EntryIdx → State → State) :
    allocateFree ⟨a, n, .read t⟩ t m st next (s.headTaken true) = next i (s.headEntered i (s.liveAt t m a n st)) :=
  allocateFree_eq (s := s.headTaken true) hfree ..

/-- In a state without a claimant that waits for a free slot, a head that lacks nothing is taken, unless it is a READ of the
aperture, which claims a slot first. -/
theorem settle_taken_of_admitted (ha : s.admitted) (hi : s.ingress = ⟨a, n, b⟩ :: rest) {d : Fate} (hd : s.fate ⟨a, n, b⟩ = d)
    (hc : s.canTake ⟨a, n, b⟩ d = true) (hg : d = .management → b.isRead = false) :
    settle s = decodeRun true (takeFate ⟨a, n, b⟩ d (s.headTaken b.isRead)) := by
  refine settle_taken (stuck_of_admitted ha) hi hd hc fun hm hr => ?_
  rw [hg hm] at hr
  cases hr

/-- A READ whose decode fails is answered through its entry (R45, R54). -/
theorem settle_failedRead (ha : s.admitted) (hi : s.ingress = ⟨a, n, .read t⟩ :: rest)
    (hd : s.fate ⟨a, n, .read t⟩ = .failed k st m) (hfree : s.freeEntry = some i) :
    settle s = decodeRun true (recordFault k .decoder m (some t) (some a) none
      { s.headEntered i (s.liveAt t m a n (.replying none st [])) with replyLane := s.replyLane ++ [i] }) := by
  rw [settle_taken_of_admitted ha hi hd (entryFor_of_freeEntry hfree) Fate.noConfusion]
  simp only [takeFate, takeFailed, HostBody.isRead, allocateFree_headTaken hfree]
  rfl

/-- A READ joins a hold list with an entry in HELD (R25, R50). -/
theorem settle_heldRead (ha : s.admitted) (hi : s.ingress = ⟨a, n, .read t⟩ :: rest)
    (hd : s.fate ⟨a, n, .read t⟩ = .toHold w) (hfree : s.freeEntry = some i) (hroom : s.heldTotal < 16) :
    settle s = decodeRun true ((s.headEntered i (s.liveAt t (some w) a n .held)).setHoldList w
      (s.holdList w ++ [⟨a, n, .read i⟩])) := by
  rw [settle_taken_of_admitted ha hi hd (canTake_toHold (entryFor_of_freeEntry hfree) hroom) Fate.noConfusion]
  simp only [takeFate, takeHold, HostBody.isRead, allocateFree_headTaken hfree]
  rfl

/-- A READ joins a branch egress queue with an entry in QUEUED (R16, R51). -/
theorem settle_queuedRead (ha : s.admitted) (hi : s.ingress = ⟨a, n, .read t⟩ :: rest)
    (hd : s.fate ⟨a, n, .read t⟩ = .toQueue w) (hfree : s.freeEntry = some i) (hp : (s.window w).portIdx = p)
    (hroom : s.egressFree p = true) {x : ModuleAddr} (hx : (s.window w).translate a = x) :
    settle s = decodeRun true ((s.headEntered i (s.liveAt t (some w) a n (.queued ⟨p, x⟩))).setPort p
      ((s.port p).withRequest ⟨x, n, .read i⟩ s.time)) := by
  have window : (s.headTaken true).window w = s.window w := rfl
  rw [settle_taken_of_admitted ha hi hd (canTake_toQueue (entryFor_of_freeEntry hfree) hp hroom) Fate.noConfusion]
  simp only [takeFate, takeQueue, HostBody.isRead, window, hp, hx, allocateFree_headTaken hfree, placeEgress_eq]
  rfl

/-- A WRITE joins a branch egress queue (R16, R51). -/
theorem settle_queuedWrite (ha : s.admitted) (hi : s.ingress = ⟨a, n, .write data⟩ :: rest)
    (hd : s.fate ⟨a, n, .write data⟩ = .toQueue w) (hp : (s.window w).portIdx = p)
    (hroom : s.egressFree p = true) {x : ModuleAddr} (hx : (s.window w).translate a = x) :
    settle s = decodeRun true ((s.headTaken false).setPort p ((s.port p).withRequest ⟨x, n, .write data⟩ s.time)) := by
  have window : (s.headTaken false).window w = s.window w := rfl
  rw [settle_taken_of_admitted ha hi hd (canTake_toQueue entryFor_write hp hroom) Fate.noConfusion]
  simp only [takeFate, takeQueue, HostBody.isRead, window, hp, hx, placeEgress_eq]
  rfl

/-- A READ of the aperture at its turn is answered in the slot that it is granted (R52, R56, R142). -/
theorem settle_grantedRead (hi : s.ingress = ⟨a, n, .read t⟩ :: rest) (hclaim : s.decoder.claim = .general)
    (hfree : s.generalFree = true) (hothers : ∀ c, c ≠ .decoder → s.claims c = false)
    (hd : s.fate ⟨a, n, .read t⟩ = .management) {bytes : List Byte}
    (hbytes : readBytes (s.headTaken true) (s.offsetOf a) n = some bytes) :
    settle s = decodeRun true { s.headTaken true with
      arbLast := .decoder, generalQueue := s.generalQueue ++ [.result t .ok bytes] } := by
  have turn : s.nextClaimant = some .decoder := nextClaimant_alone hclaim hothers
  have canTake : s.canTake ⟨a, n, .read t⟩ .management = true := by
    simp only [State.canTake, State.decoderTurn, claim_again hclaim, hfree, turn]
    rfl
  have offset : (s.headTaken true).offsetOf a = s.offsetOf a := rfl
  rw [settle_taken (fun _ => .inr turn) hi hd canTake fun _ _ => hclaim]
  simp only [takeFate, manageRead, HostBody.isRead, offset, hbytes]
  rfl

end

/-- Settles O38: each wait by the fate of the frame and the resource that its fate lacks, each taking by `settle_taken`. -/
theorem headWaitsForItsResources : Obligations.HeadWaitsForItsResources := by
  unfold Obligations.HeadWaitsForItsResources
  refine ⟨?arrival, ?waiting, ?granted⟩
  case arrival =>
    intro s n a m h h1 h2 outside wait noSlot fullQueue
    refine ⟨fun t ht => ?_, fun data hdata => ?_⟩
    · have fresh : s.fresh ⟨a, n, .read t⟩ := fresh_read ht
      refine ⟨fun hin hfull => ?_, fun hout hm hlive => ?_, fun w i hw hout hm hd hi => ⟨fun hno => ?_, fun p hfull => ?_⟩⟩
      · refine exec_manageRead_waits h h1 h2 (fate_inside fresh hin) ?_
        simp only [State.generalFree, Bool.and_eq_false_iff, decide_eq_false_iff_not]
        exact .inr (Nat.not_lt.mpr hfull)
      · have noEntry : s.entryFor ⟨a, n, .read t⟩ = false := by simp [State.entryFor, freeEntry_of_full hlive, HostBody.isRead]
        rcases fate_window fresh hout hm h1 with ⟨k, st, hd⟩ | ⟨w, rfl, hd | hd⟩
        · exact exec_hostRead_waits h h1 h2 hd Fate.noConfusion noEntry
        · exact exec_hostRead_waits h h1 h2 hd Fate.noConfusion (by simp [State.canTake, noEntry])
        · refine (exec_hostRead_waits h h1 h2 hd Fate.noConfusion (by simp [State.canTake, noEntry])).trans ?_
          simp only [State.claimFor, noEntry, Bool.false_eq_true, if_false]
          rfl
      · subst hw
        obtain ⟨hheld, hslots⟩ := hno
        exact exec_hostRead_waits h h1 h2 (fate_toHold fresh hout hm h1 hd hheld) Fate.noConfusion (canTake_toHold_full hslots)
      · subst hw
        obtain ⟨hpass, hempty, hport, hqueue⟩ := hfull
        have hp : (s.window w).portIdx = p := portIdx_eq hport
        have entry : s.entryFor ⟨a, n, .read t⟩ = true := by simp [State.entryFor, freeEntry_of_free hi]
        refine (exec_hostRead_waits h h1 h2 (fate_toQueue fresh hout hm h1 hd hpass hempty) Fate.noConfusion
          (canTake_toQueue_full hp hqueue)).trans ?_
        rw [claimFor_toQueue hp entry]
        rfl
    · subst hdata
      intro go w hw hout hm hd
      subst hw
      have fresh : s.fresh ⟨a, data.length, .write data⟩ := fresh_write
      refine ⟨fun hno => ?_, fun p hfull => ?_⟩
      · obtain ⟨hheld, hslots⟩ := hno
        exact exec_hostWriteFrame_waits h h1 h2 (fate_toHold fresh hout hm h1 hd hheld) Fate.noConfusion
          (canTake_toHold_full hslots)
      · obtain ⟨hpass, hempty, hport, hqueue⟩ := hfull
        have hp : (s.window w).portIdx = p := portIdx_eq hport
        refine (exec_hostWriteFrame_waits h h1 h2 (fate_toQueue fresh hout hm h1 hd hpass hempty) Fate.noConfusion
          (canTake_toQueue_full hp hqueue)).trans ?_
        rw [claimFor_toQueue hp entryFor_write]
        rfl
  case waiting =>
    intro s n a b rest ha hi hn outside u live
    refine ⟨settle_of_headWaits ha hi, fun m hout hm => ⟨fun t i hb ht hfree hlow => ?_, fun data hb => ?_⟩, fun data hin hb => ?_⟩
    · subst hb
      have fresh : s.fresh ⟨a, n, .read t⟩ := fresh_read ht
      have free : s.freeEntry = some i := freeEntry_lowest hfree hlow
      refine ⟨fun k st hd => settle_failedRead ha hi (fate_failed fresh hout hm hn hd) free, fun w hw hd => ?_⟩
      subst hw
      refine ⟨fun hheld => settle_heldRead ha hi (fate_toHold fresh hout hm hn hd hheld) free, fun p hpass hempty hport hroom => ?_⟩
      have hp : (s.window w).portIdx = p := portIdx_eq hport
      obtain ⟨⟨_, hbase, _⟩, _⟩ := id hm
      exact settle_queuedRead ha hi (fate_toQueue fresh hout hm hn hd hpass hempty) free hp
        (egressFree_of_passed hd hpass hp hroom) (translate_eq hbase)
    · subst hb
      have fresh : s.fresh ⟨a, n, .write data⟩ := fresh_write
      refine ⟨fun k st hd => settle_taken_of_admitted ha hi (fate_failed fresh hout hm hn hd) entryFor_write Fate.noConfusion,
        fun w hw hd => ?_⟩
      subst hw
      refine ⟨fun hheld hroom => settle_taken_of_admitted ha hi (fate_toHold fresh hout hm hn hd hheld)
        (canTake_toHold entryFor_write hroom) Fate.noConfusion, fun p hpass hempty hport hroom => ?_⟩
      have hp : (s.window w).portIdx = p := portIdx_eq hport
      obtain ⟨⟨_, hbase, _⟩, _⟩ := id hm
      exact settle_queuedWrite ha hi (fate_toQueue fresh hout hm hn hd hpass hempty) hp
        (egressFree_of_passed hd hpass hp hroom) (translate_eq hbase)
    · subst hb
      exact settle_taken_of_admitted ha hi (fate_inside fresh_write hin) rfl fun _ => rfl
  case granted =>
    intro s n a t rest r hi hclaim hup hroom hothers ht off hlo hoff hn h4 hn4 hr hend u
    have inside : ¬s.outside a := by
      simp only [State.outside, off] at hoff ⊢
      omega
    have free : s.generalFree = true := by simp [State.generalFree, hup, Config.generalSlots, hroom]
    refine settle_grantedRead hi hclaim free hothers (fate_inside (fresh_read ht) inside) ?_
    rw [readBytes, show s.offsetOf a = off from rfl, (readForm_eq_some_iff hn).mpr ⟨h4, hn4, hr, hend, rfl⟩]
    rfl

end Sys2Proof.Machine
end

section
/-! Host frames that arrive behind a head, the reply lane's transmission, the head wait deadline and the trunk RESET: each
command carried out once, with its tests decided by the state's items. -/

namespace Sys2Proof.Machine

-- The theorems are checked one after the other, which bounds the memory that the check takes.
set_option Elab.async false

/-! ### Host frames behind a head -/

section
variable {s : State} {r : TrunkRequest}

/-- A valid frame of the host on a live trunk is counted and handed on (R97). -/
theorem exec_trunkIngressFrame_live (hl : s.rxPhase .trunk = .live) (hv : validRequest r = true)
    (hf : sizeFramed (requestSize r) = true) : exec (.trunkIngressFrame r) s =
      .next (if s.ingressSlot (requestCls r) then enqueueTrunk (requestFrame r) (s.frameIn .trunk)
        else creditOverrun .trunk (requestCls r) (requestFrame r).body.ticket (requestFrame r).address
          (s.frameIn .trunk)) := by
  have counted : s.modLink .trunk LinkEnd.countIn = s.frameIn .trunk := rfl
  have slot : (s.frameIn .trunk).ingressSlot (requestCls r) = s.ingressSlot (requestCls r) := by
    cases requestCls r <;> rfl
  show Host.Outcome.next (receiveRequest r s) = _
  simp only [receiveRequest, receive, hf, hl, if_true, acceptRequest, hv, counted, slot]

/-- Behind a head a frame joins the tail, and is not examined (R41). -/
theorem enqueueTrunk_behind (hi : s.ingress ≠ []) (f : HostFrame) :
    enqueueTrunk f s = { s with ingress := s.ingress ++ [f] } := by
  have occupied : s.ingress.isEmpty = false := List.isEmpty_eq_false_iff.mpr hi
  simp only [enqueueTrunk, occupied, Bool.false_eq_true, if_false]

/-- An overrun in UP: the frame is counted as discarded and consumed, which makes a CREDIT due (R93, R96). -/
theorem creditOverrun_trunk (hup : s.linkLive .trunk = true) (c : CreditClass) (t : Option (BitVec 6)) (a : HostAddr) :
    creditOverrun .trunk c t a s = recordFault .creditOverrun .trunk none t (some a) none
      { s with trunk := { s.trunk.countDiscard.consume c with creditPending := true } } := by
  have live : ∀ e, ({ s with trunk := e } : State).linkLive .trunk = true := fun _ => hup
  simp only [creditOverrun, discardFrame, State.consume, State.modLink_eq, State.setLink_trunk, State.linkEnd_trunk, live,
    Bool.or_true, linkSource]

/-- A valid frame that finds a slot of its class behind a head joins the tail (R41, R126). -/
theorem exec_trunkIngressFrame_queued (hl : s.rxPhase .trunk = .live) (hi : s.ingress ≠ []) (hv : validRequest r = true)
    (hf : sizeFramed (requestSize r) = true) (hslot : s.ingressSlot (requestCls r) = true) :
    exec (.trunkIngressFrame r) s = .next { s.frameIn .trunk with ingress := s.ingress ++ [requestFrame r] } := by
  rw [exec_trunkIngressFrame_live hl hv hf, if_pos hslot, enqueueTrunk_behind (s := s.frameIn .trunk) hi]
  rfl

/-- A valid frame without a slot of its class overruns (R96). -/
theorem exec_trunkIngressFrame_overrun (hl : s.rxPhase .trunk = .live) (hv : validRequest r = true)
    (hf : sizeFramed (requestSize r) = true) (hslot : ¬s.ingressSlot (requestCls r) = true) :
    exec (.trunkIngressFrame r) s =
      .next (recordFault .creditOverrun .trunk none (requestFrame r).body.ticket (some (requestFrame r).address) none
        { s with trunk := { s.trunk.countIn.countDiscard.consume (requestCls r) with creditPending := true } }) := by
  obtain ⟨up, _, _⟩ := linkLive_of_rxPhase_live hl
  rw [exec_trunkIngressFrame_live hl hv hf, if_neg hslot, creditOverrun_trunk (s := s.frameIn .trunk) up]
  rfl

end

/-- Settles O33: a READ or a WRITE by whether its class has a slot. -/
theorem hostFramesQueueBehindTheHead : Obligations.HostFramesQueueBehindTheHead := by
  unfold Obligations.HostFramesQueueBehindTheHead
  intro s a hl hi e overrun
  refine ⟨fun t n h1 h2 => ?_, fun data h1 h2 => ?_⟩
  · obtain ⟨valid, framed, frame⟩ := validRequest_hostRead (a := a) (t := t) h1 h2
    refine ⟨fun room => ?_, fun full => ?_⟩
    · rw [exec_trunkIngressFrame_queued hl hi valid framed (ingressSlot_b.mpr room), frame]
      rfl
    · rw [exec_trunkIngressFrame_overrun hl valid framed (mt ingressSlot_b.mp (Nat.not_lt.mpr full)), frame]
      rfl
  · obtain ⟨valid, framed, frame⟩ := validRequest_hostWriteFrame (a := a) h1 h2
    refine ⟨fun room => ?_, fun full => ?_⟩
    · rw [exec_trunkIngressFrame_queued hl hi valid framed (ingressSlot_a.mpr room), frame]
      rfl
    · rw [exec_trunkIngressFrame_overrun hl valid framed (mt ingressSlot_a.mp (Nat.not_lt.mpr full)), frame]
      rfl

/-! ### The reply lane -/

section
variable {s : State}

/-- With credit the general queue offers its head, whatever frame it is (R137). -/
theorem generalOffer_of_credit (h : s.trunk.credit .a ≠ 0) : s.generalOffer = !s.generalQueue.isEmpty := by
  unfold State.generalOffer
  cases s.generalQueue with
  | nil => rfl
  | cons f rest =>
    cases f with
    | notice v => rfl
    | result t st data | write w => exact decide_eq_true h

/-- An offered answer is taken when the general queue offers nothing or was served last (R137, R138). -/
theorem replyReady_eq (ho : s.trunkOffers = true) (hr : s.replyLane ≠ []) (hc : s.trunk.credit .a ≠ 0) :
    s.replyReady = (s.generalQueue.isEmpty || s.laneLast == .general) := by
  have waiting : s.replyLane.isEmpty = false := List.isEmpty_eq_false_iff.mpr hr
  have offer : s.replyOffer = true := by
    rw [State.replyOffer, waiting]
    exact decide_eq_true hc
  simp only [State.replyReady, ho, offer, generalOffer_of_credit hc, Bool.true_and, Bool.not_not]

/-- The frame of an entry in REPLYING carries its ticket, status and data (R75). -/
theorem answerOf_replying {i : EntryIdx} {v : Live} {r : Option Route} {st : Status} {data : List Byte}
    (hv : (s.entry i).live = some v) (hr : v.stage = .replying r st data) : s.answerOf i = .result v.ticket st data := by
  simp only [State.answerOf, hv, hr]

end

/-- Settles O12: whether it is the lane's turn by `replyReady_eq`, and then the head's answer and its freed entry. -/
theorem replyLaneTransmitsItsHead : Obligations.ReplyLaneTransmitsItsHead := by
  unfold Obligations.ReplyLaneTransmitsItsHead
  intro s i rest v r st data hpor hup htx hack hcredit hlane hv hst hc
  have offers : s.trunkOffers = true := by simp [State.trunkOffers, State.txFree, State.controlDue, hup, htx, hack, hcredit]
  have ready : s.replyReady = (s.generalQueue.isEmpty || s.laneLast == .general) :=
    replyReady_eq offers (by simp [hlane]) hc
  have row : exec .replyLaneTransmit s = .next (if s.replyReady then sendReply s else s) :=
    congrArg Host.Outcome.next (whenPowered_of_high hpor _)
  rw [row]
  refine ⟨fun hq hlast => ?_, fun hturn => ?_⟩
  · have waits : s.replyReady = false := by simp [ready, hq, hlast]
    rw [waits, if_neg Bool.false_ne_true]
  · have taken : s.replyReady = true := by rcases hturn with h | h <;> simp [ready, h]
    rw [if_pos taken]
    simp only [sendReply, hlane, answerOf_replying hv hst]
    rfl

/-! ### The head wait deadline -/

/-- Settles O28: the head leaves as any head does, and its record stands before the next examination. -/
theorem headWaitDeadlineDiscardsTheHead : Obligations.HeadWaitDeadlineDiscardsTheHead := by
  unfold Obligations.HeadWaitDeadlineDiscardsTheHead
  intro s f rest hpor hi hdue u
  have popped : popHead f s = { s with
      ingress := rest
      decoder := ⟨none, .noClaim, none⟩
      trunk := { s.trunk with
        consumedA := if f.body.isRead then s.trunk.consumedA else s.trunk.consumedA + 1
        consumedB := if f.body.isRead then s.trunk.consumedB + 1 else s.trunk.consumedB
        creditPending := s.trunk.creditPending || s.trunkState == .up } } := by
    rw [popHead_eq, State.headTaken, hi]
    rfl
  have row : exec .headWaitDeadline s = .next (decodeRun true u) := by
    show Host.Outcome.next (whenPowered headWaitReached s) = _
    rw [whenPowered_of_high hpor]
    simp only [headWaitReached, hi, hdue, if_true, popped, u]
  refine ⟨row, fun hrest => ?_⟩
  have noFrame : u.ingress = [] := (recordFault_ingress ..).trans hrest
  rw [row, decodeRun_empty true noFrame, serveClaims_recordFault]

/-! ### The trunk RESET -/

/-- The trunk with a busy transmitter enters TRAINING with its first SYNC held back (R87, log 6). -/
theorem startTraining_trunk_busy {s : State} (h : s.trunk.transmitting ≠ none) :
    startTraining .trunk s = { s with
      trunkState := .training
      trunk := { s.trunk with
        retry := none, syncAckDue := false, creditPending := false, syncsSent := 0, syncDue := true, resend := none } } := by
  rw [startTraining, dueSync_of_busy (by simpa [setTraining] using h)]
  rfl

/-- A RESET of 3 bytes on a live trunk resets the router (R133). -/
theorem exec_trunkReset_live {s : State} (hl : s.rxPhase .trunk = .live) :
    exec (.trunkReset 3) s = .next (trunkReset (s.frameIn .trunk)) := by
  have framed : sizeFramed 3 = true := rfl
  show Host.Outcome.next (receive _ _ _ _ _ _ _) = _
  simp only [receive, framed, hl, if_true]
  rfl

/-- Settles O20: the cleared router enters TRAINING with an empty trunk ingress queue, its transmitter free or busy. -/
theorem trunkResetResetsTheRouter : Obligations.TrunkResetResetsTheRouter := by
  unfold Obligations.TrunkResetResetsTheRouter
  intro s hl e
  rw [exec_trunkReset_live hl, trunkReset]
  refine congrArg Host.Outcome.next ?_
  by_cases hfree : s.trunk.transmitting = none
  · have free : e.transmitting = none := hfree
    rw [if_pos free]
    exact Eq.trans (startTraining_trunk hfree) rfl
  · have busy : ¬e.transmitting = none := hfree
    rw [if_neg busy]
    exact Eq.trans (startTraining_trunk_busy hfree) rfl

end Sys2Proof.Machine
end

section
/-! The router control fields written at a free decoder, and the management READ (R44, R52, R56, R169 to R177). -/

namespace Sys2Proof.Machine

-- The theorems are checked one after the other, which bounds the memory that the check takes.
set_option Elab.async false

/-! ### Values of control fields -/

/-- A WRITE of a field alone carries the number that its bytes spell. -/
theorem fieldOf_whole {n v : Nat} (k : Nat) (hv : v < 256 ^ n) : fieldOf k (beBytes n v) k n = some v := by
  rw [fieldOf, if_pos (by simp), Nat.sub_self, List.drop_zero, List.take_of_length_le (by simp), beNat_beBytes,
    Nat.mod_eq_of_lt hv]

/-- A WRITE of a field alone carries no field that begins before it or ends after it. -/
theorem fieldOf_other {k n v field size : Nat} (h : field < k ∨ k + n < field + size) :
    fieldOf k (beBytes n v) field size = none := by
  rcases h with before | beyond
  · exact fieldOf_before before
  · exact fieldOf_beyond (by rwa [length_beBytes])

/-- A WRITE of the correct form with a value out of its range is discarded with MGMT_FORM (R172, R173). -/
theorem hostWrite_invalid {s : State} (h : s.hostReady) {off : Nat} {data : List Byte} {r : RecordId} {at' : Nat}
    (ho : off < 0x10000) (h1 : 1 ≤ data.length) (h2 : data.length ≤ 64) (hf : writeForm off data.length = some (r, at'))
    (hv : validFields r at' data = false) : hostWrite off data s =
      recordFault .mgmtForm .management (windowAt off) none (some (s.apertureBase + BitVec.ofNat 40 off)) none
        s.writeTaken := by
  obtain ⟨_, _, _, _, _, hb⟩ := id h
  have hoff : s.writeTaken.offsetOf (s.apertureBase + BitVec.ofNat 40 off) = off := (aperture_offset hb ho).2
  rw [hostWrite_hostReady h ho h1 h2]
  simp only [manageWrite, hoff, hf, hv, Bool.false_eq_true, if_false, mgmtForm, serveClaims_recordFault]

section
variable (v : Nat) (s : State)

/-- The aperture base takes the 64 KiB boundaries of the 40-bit space (R169). -/
theorem validFields_apertureBase (hv : v < 256 ^ 8) :
    validFields .control 0 (beBytes 8 v) = decide (v < 2 ^ 40 ∧ v % 0x10000 = 0) := by
  simp (disch := decide) only [validFields, fieldOf_whole 0 hv, fieldOf_other, fieldIs, Bool.and_true, Bool.decide_and]
  rfl

theorem writeControl_apertureBase (hv : v < 256 ^ 8) :
    writeControl 0 (beBytes 8 v) s = { s with apertureBase := BitVec.ofNat 40 v } := by
  simp (disch := decide) only [writeControl, fieldOf_whole 0 hv, fieldOf_other, withField]

/-- The ticket lifetime takes 16 to 1,048,575 microseconds (R65). -/
theorem validFields_ticketLifetime (hv : v < 256 ^ 4) :
    validFields .control 8 (beBytes 4 v) = decide (16 ≤ v ∧ v ≤ 1048575) := by
  simp (disch := decide) only [validFields, fieldOf_whole 8 hv, fieldOf_other, fieldIs, Bool.true_and, Bool.and_true,
    Bool.decide_and]

theorem writeControl_ticketLifetime (hv : v < 256 ^ 4) :
    writeControl 8 (beBytes 4 v) s = { s with ticketLifetime := BitVec.ofNat 32 v } := by
  simp (disch := decide) only [writeControl, fieldOf_whole 8 hv, fieldOf_other, withField]

/-- The head wait limit takes 0 to 65,535 microseconds (R59). -/
theorem validFields_headWaitLimit (hv : v < 256 ^ 4) :
    validFields .control 0xC (beBytes 4 v) = decide (v ≤ 65535) := by
  simp (disch := decide) only [validFields, fieldOf_whole 0xC hv, fieldOf_other, fieldIs, Bool.true_and, Bool.and_true]

theorem writeControl_headWaitLimit (hv : v < 256 ^ 4) :
    writeControl 0xC (beBytes 4 v) s = { s with headWaitLimit := BitVec.ofNat 32 v } := by
  simp (disch := decide) only [writeControl, fieldOf_whole 0xC hv, fieldOf_other, withField]

end

/-- A WRITE of one control field at a free decoder: a value of its range replaces the field, and any other is discarded
with MGMT_FORM (R172, R173, R177). -/
theorem hostWrite_controlField {s u : State} (h : s.hostReady) {k : Nat} {data : List Byte} {inRange : Prop}
    [Decidable inRange] (hk : k + data.length ≤ 20) (h1 : 1 ≤ data.length)
    (hf : writeForm (0x40 + k) data.length = some (.control, k))
    (hv : validFields .control k data = decide inRange) (hw : writeControl k data s.writeTaken = u)
    (hu : serveClaims u = u) :
    (inRange → hostWrite (0x40 + k) data s = u) ∧
    (¬inRange → hostWrite (0x40 + k) data s = recordFault .mgmtForm .management none none
      (some (s.apertureBase + BitVec.ofNat 40 (0x40 + k))) none s.writeTaken) := by
  have inside : 0x40 + k < 0x10000 := by omega
  have short : data.length ≤ 64 := by omega
  refine ⟨fun good => ?_, fun bad => ?_⟩
  · rw [hostWrite_applied h inside h1 short hf (hv.trans (decide_eq_true good))]
    simp only [applyRecord, hw, hu]
  · have noWindow : windowAt (0x40 + k) = none := if_neg (by omega)
    rw [hostWrite_invalid h inside h1 short hf (hv.trans (decide_eq_false bad)), noWindow]

/-- Settles O44: each field by its range. -/
theorem controlFieldsTakeTheirRanges : Obligations.ControlFieldsTakeTheirRanges := by
  unfold Obligations.ControlFieldsTakeTheirRanges
  intro s h bad
  have quiet : ∀ u : State, u.decoder = .clear → u.trunkState = s.trunkState → u.generalQueue = s.generalQueue →
      u.lines = s.lines → u.lastLine = s.lastLine → u.ports = s.ports → serveClaims u = u := by
    intro u hd ht hq hl hlast hp
    exact serveClaims_afterTaking h (by rw [hd]; rfl) ht hq hl hlast fun p => by rw [State.port, hp]; rfl
  refine ⟨fun v => ?_, fun v => ?_, fun v => ?_⟩
  · have width : v.toNat < 256 ^ 8 := v.isLt
    obtain ⟨good, invalid⟩ := hostWrite_controlField h (k := 0) (data := beBytes 8 v.toNat) (by simp) (by simp)
      (by rw [length_beBytes]; decide) (validFields_apertureBase _ width) (writeControl_apertureBase _ _ width)
      (quiet _ rfl rfl rfl rfl rfl rfl)
    exact ⟨fun h1 h2 => congrArg Host.Outcome.next (good ⟨h1, h2⟩),
      fun hbad => congrArg Host.Outcome.next (invalid (by omega))⟩
  · have width : v.toNat < 256 ^ 4 := v.isLt
    obtain ⟨good, invalid⟩ := hostWrite_controlField h (k := 8) (data := beBytes 4 v.toNat) (by simp) (by simp)
      (by rw [length_beBytes]; decide) (validFields_ticketLifetime _ width) (writeControl_ticketLifetime _ _ width)
      (quiet _ rfl rfl rfl rfl rfl rfl)
    rw [BitVec.ofNat_toNat, BitVec.setWidth_eq] at good
    exact ⟨fun h1 h2 => congrArg Host.Outcome.next (good ⟨h1, h2⟩),
      fun hbad => congrArg Host.Outcome.next (invalid (by omega))⟩
  · have width : v.toNat < 256 ^ 4 := v.isLt
    obtain ⟨good, invalid⟩ := hostWrite_controlField h (k := 0xC) (data := beBytes 4 v.toNat) (by simp) (by simp)
      (by rw [length_beBytes]; decide) (validFields_headWaitLimit _ width) (writeControl_headWaitLimit _ _ width)
      (quiet _ rfl rfl rfl rfl rfl rfl)
    rw [BitVec.ofNat_toNat, BitVec.setWidth_eq] at good
    exact ⟨fun h1 => congrArg Host.Outcome.next (good h1), fun hbad => congrArg Host.Outcome.next (invalid (by omega))⟩

/-! ### The management READ -/

section
variable {s : State} (h : s.hostReady) {t : BitVec 6} {n off : Nat}
include h

/-- A management READ that finds a slot of the general queue is handed to the management unit at its arrival (R52, R56). -/
theorem exec_manageRead_granted (h1 : 1 ≤ n) (h2 : n ≤ 64) (ho : off < 0x10000) (hg : s.generalFree = true)
    (ht : ∀ j, s.ticketOf j ≠ some t) :
    exec (.trunkIngressFrame (hostRead t n (s.apertureBase + BitVec.ofNat 40 off))) s =
      .next (serveClaims (manageRead t (s.apertureBase + BitVec.ofNat 40 off) n s.readTaken)) := by
  obtain ⟨_, _, _, _, _, hb⟩ := id h
  obtain ⟨valid, framed, frame⟩ := validRequest_hostRead (a := s.apertureBase + BitVec.ofNat 40 off) (t := t) h1 h2
  have fate : s.fate ⟨s.apertureBase + BitVec.ofNat 40 off, n, .read t⟩ = .management := by
    refine fate_management (fun t' ht' => ?_) (aperture_offset hb ho).1
    exact Bool.eq_false_iff.mpr fun live => (ticketLive_iff.mp live).elim (fresh_read ht t' ht')
  show Host.Outcome.next (receiveRequest (hostRead t n (s.apertureBase + BitVec.ofNat 40 off)) s) = _
  rw [receiveRequest_hostReady h valid framed, frame, fate, decide_manageRead h rfl hg]

/-- The answer placed in a slot that was free leaves no claimant waiting, as none waited before. -/
theorem serveClaims_answered (hg : s.generalFree = true) (f : GeneralFrame) :
    serveClaims (placeGeneral f { s.readTaken with arbLast := .decoder }) =
      placeGeneral f { s.readTaken with arbLast := .decoder } := by
  obtain ⟨_, _, _, _, admitted, _⟩ := h
  refine serveClaims_of_admitted fun _ c => ?_
  cases c with
  | decoder => rfl
  | branch p => exact admitted hg (.branch p)
  | eventUnit => exact admitted hg .eventUnit

end

/-- Settles O37: the READ is handed to the management unit, and the record map decides its form. -/
theorem managementReadIsAnswered : Obligations.ManagementReadIsAnswered := by
  unfold Obligations.ManagementReadIsAnswered
  intro s t n off h hroom h1 h2 ho ht a go
  obtain ⟨_, _, hup, _, _, hb⟩ := id h
  have free : s.generalFree = true := by simp [State.generalFree, hup, Config.generalSlots, hroom]
  have granted : go = .next (serveClaims (manageRead t a n s.readTaken)) := exec_manageRead_granted h h1 h2 ho free ht
  have offset : s.readTaken.offsetOf a = off := (aperture_offset (s := s.readTaken) hb ho).2
  refine ⟨fun r h4 hn4 hlo hhi => ?_, fun hbad => ?_⟩
  · have form : readForm off n = some (r, off - r.offset) := (readForm_eq_some_iff h1).mpr ⟨h4, hn4, hlo, hhi, rfl⟩
    rw [granted]
    simp only [manageRead, offset, readBytes, form, Option.map_some]
    rw [serveClaims_answered h free]
    rfl
  · have form : readForm off n = none := by
      refine Option.eq_none_iff_forall_ne_some.mpr fun (r, k) hform => ?_
      obtain ⟨h4, hn4, hlo, hhi, _⟩ := (readForm_eq_some_iff h1).mp hform
      rcases hbad with hbad | hbad | hbad
      · exact hbad h4
      · exact hbad hn4
      · have := hbad r
        omega
    rw [granted]
    simp only [manageRead, offset, readBytes, form, Option.map_none, mgmtForm, serveClaims_recordFault]
    rfl

end Sys2Proof.Machine
end

section
/-! A module's RESULT and the ticket table (O22, O23, O24): the entry that it matches, the answer that it forms, and a RESULT
that matches none (R69 to R71). -/

namespace Sys2Proof.Machine

-- The theorems are checked one after the other, which bounds the memory that the check takes.
set_option Elab.async false

/-! ### What grants and idleness leave of a port -/

/-- The stale counter is not among what grants of the general queue can change. -/
theorem PortGrant.stale {b c : PortBlock} (h : PortGrant b c) : c.stale = b.stale := by
  obtain ⟨_, _, _, _, _, _, _, _, rfl⟩ := h.rest
  rfl

/-- Idleness concerns no stale counter (R113). -/
theorem refreshIdle_stale (p q : PortIdx) (s : State) : ((refreshIdle p s).port q).stale = (s.port q).stale := by
  have written : ∀ b : PortBlock, b.stale = (s.port p).stale → ((s.setPort p b).port q).stale = (s.port q).stale := by
    intro b hb
    rw [State.port_setPort]
    split
    · rename_i hq; rw [hb, hq]
    · rfl
  obtain e | ⟨_, _, e⟩ | ⟨_, e⟩ := refreshIdle_cases p s <;> rw [e]
  · exact written _ rfl
  · exact written _ rfl

/-- Idleness makes no record (R113). -/
theorem refreshIdle_faultLog (p : PortIdx) (s : State) : (refreshIdle p s).faultLog = s.faultLog := by
  obtain ⟨_, e⟩ := refreshIdle_frame p s
  rw [e, State.setPort_faultLog]

/-! ### The entry that a RESULT matches -/

/-- A RESULT matches the entry in SENT that its branch ticket names by index and epoch, for the port it came in on (R64, R69). -/
theorem matchResult_eq_some_iff {s : State} {p : PortIdx} {ticket : Byte} (ht : ticket.toNat ≤ 63) {i : EntryIdx} {v : Live} :
    s.matchResult p ticket = some (i, v) ↔
      ticket.toNat = 4 * i.val + (s.entry i).epoch.toNat ∧ (s.entry i).live = some v ∧
        ∃ r, v.stage = .sent r ∧ r.port = p := by
  have index : (Fin.ofNat 16 (ticket.toNat / 4)).val = ticket.toNat / 4 := Nat.mod_eq_of_lt (by omega)
  constructor
  · intro h
    unfold State.matchResult at h
    simp only at h
    split at h
    · rename_i u hu
      split at h
      · rename_i r hr
        split at h
        · rename_i hm
          obtain ⟨rfl, rfl⟩ := Prod.mk.inj (Option.some.inj h)
          exact ⟨by rw [index, hm.2]; omega, hu, r, hr, hm.1⟩
        · cases h
      · cases h
    · cases h
  · rintro ⟨hi, hv, r, hr, hp⟩
    have epoch : (s.entry i).epoch.toNat < 4 := (s.entry i).epoch.isLt
    have named : Fin.ofNat 16 (ticket.toNat / 4) = i := Fin.ext (by rw [index]; omega)
    have same : (s.entry i).epoch.toNat = ticket.toNat % 4 := by omega
    simp only [State.matchResult, named, hv, hr, hp, same, and_self, if_true]

/-! ### The arrival of a RESULT -/

/-- The RESULT is counted and consumed, and a CREDIT is due (R93, R101). -/
def State.resultTaken (s : State) (p : PortIdx) : State :=
  s.setPort p { s.port p with link := { (s.port p).link with
    framesIn := (s.port p).link.framesIn + 1, consumedB := (s.port p).link.consumedB + 1, creditPending := true } }

section
variable {p : PortIdx} {s : State}

theorem consume_countIn (hl : s.linkLive (.branch p) = true) :
    (s.modLink (.branch p) LinkEnd.countIn).consume (.branch p) .b = s.resultTaken p := by
  have live : (s.modLink (.branch p) LinkEnd.countIn).linkLive (.branch p) = true := by
    rw [← hl]
    simp [State.linkLive]
  simp only [State.consume, live, Bool.or_true]
  simp [LinkEnd.countIn, LinkEnd.consume, State.resultTaken]

variable {ticket n : Byte} {data : List Byte} (hl : s.rxPhase (.branch p) = .live) (ht : ticket.toNat ≤ 63)
  (hn : n.toNat ≤ 64) (hd : data.length = n.toNat) (st : BitVec 3)
include hl ht hn hd

/-- A RESULT of the correct form in UP or DOZE_WAIT goes to the ticket table, consumed whatever its fate (R69, R70, R93). -/
theorem exec_branchResult_live : exec (.branchResultArrival p (5 + n.toNat) st ticket n data) s =
    .next ((s.matchResult p ticket).elim (staleResult p ticket (s.resultTaken p)) fun m =>
      refreshIdle p (matchedResult m.1 m.2 st n data (s.resultTaken p))) := by
  have framed : sizeFramed (5 + n.toNat) = true := by
    simp only [sizeFramed, Bool.and_eq_true, decide_eq_true_eq]
    omega
  have valid : validResult (5 + n.toNat) ticket n data = true := by
    simp only [validResult, Bool.and_eq_true, decide_eq_true_eq, beq_iff_eq]
    exact ⟨⟨⟨by omega, hn⟩, trivial⟩, hd⟩
  have same : (s.resultTaken p).matchResult p ticket = s.matchResult p ticket := rfl
  show Host.Outcome.next (receive (.branch p) _ _ _ _ _ s) = _
  simp only [receive, framed, hl, if_true, acceptResult, valid, consume_countIn (linkLive_of_rxPhase_live hl).1, same]
  cases s.matchResult p ticket <;> rfl

/-- A RESULT that matches an entry forms its answer, and the port may become idle (R69, R113). -/
theorem exec_branchResult_matched {i : EntryIdx} {v : Live} (hm : s.matchResult p ticket = some (i, v)) :
    exec (.branchResultArrival p (5 + n.toNat) st ticket n data) s =
      .next (refreshIdle p (matchedResult i v st n data (s.resultTaken p))) := by
  rw [exec_branchResult_live hl ht hn hd st, hm, Option.elim_some]

/-- A RESULT that matches no entry is counted and recorded as stale (R70). -/
theorem exec_branchResult_stale (hm : s.matchResult p ticket = none) :
    exec (.branchResultArrival p (5 + n.toNat) st ticket n data) s = .next (staleResult p ticket (s.resultTaken p)) := by
  rw [exec_branchResult_live hl ht hn hd st, hm, Option.elim_none]

end

/-! ### The answer -/

section
variable {s : State} {i : EntryIdx} {v : Live} (hv : (s.entry i).live = some v) (hr : v.stage.isReplying = false) {n : Byte}
  (data : List Byte)
include hv hr

/-- An OK RESULT of the entry's length is relayed with its data (R69). -/
theorem matchedResult_ok (hn : n.toNat = v.length) : matchedResult i v 0 n data s = s.answered i v .ok data := by
  rw [matchedResult, if_pos rfl, if_pos hn, toReplying_live hv hr]

/-- An OK RESULT of another length is DAMAGED, with its record (R71). -/
theorem matchedResult_wrongLength (hn : n.toNat ≠ v.length) : matchedResult i v 0 n data s =
    recordFault .resultLength .tickets v.window (some v.ticket) (some v.address) (some (.one (n.setWidth 16)))
      (s.answered i v .damaged []) := by
  rw [matchedResult, if_pos rfl, if_neg hn, toReplying_live hv hr]

/-- A RESULT of another status is relayed without data (R69). -/
theorem matchedResult_failed {st : BitVec 3} (hst : st ≠ 0) :
    matchedResult i v st n data s = s.answered i v (relayedStatus st) [] := by
  rw [matchedResult, if_neg hst, toReplying_live hv hr]

end

/-- A status of 4 to 7 is relayed as DAMAGED (R69). -/
theorem relayedStatus_reserved {st : BitVec 3} (h : 4 ≤ st.toNat) : relayedStatus st = .damaged := by
  revert st
  decide

/-- Settles O22: the branch ticket names the entry, whose answer `matchedResult` forms by status and count. -/
theorem matchedResultIsRelayed : Obligations.MatchedResultIsRelayed := by
  unfold Obligations.MatchedResultIsRelayed
  intro p st ticket n data s i v r b u go hl hn hd hv hst hp ht
  have epoch : (s.entry i).epoch.toNat < 4 := (s.entry i).epoch.isLt
  have small : ticket.toNat ≤ 63 := by omega
  have matched : s.matchResult p ticket = some (i, v) := (matchResult_eq_some_iff small).mpr ⟨ht, hv, r, hst, hp⟩
  have working : v.stage.isReplying = false := by rw [hst]; rfl
  have live : (u.entry i).live = some v := hv
  have relayed : go = .next (refreshIdle p (matchedResult i v st n data u)) :=
    exec_branchResult_matched hl small hn hd st matched
  have failed : st ≠ 0 → go = .next (refreshIdle p (u.answered i v (relayedStatus st) [])) := fun h => by
    rw [relayed, matchedResult_failed live working data h]
  refine ⟨fun h hlen => ?_, fun h hlen => ?_, fun h => ?_, fun h => ?_, fun h => ?_, fun h => ?_⟩
  · rw [relayed, h, matchedResult_ok live working data hlen]
  · rw [relayed, h, matchedResult_wrongLength live working data hlen]
  · rw [failed (by rw [h]; decide), h]; rfl
  · rw [failed (by rw [h]; decide), h]; rfl
  · rw [failed (by rw [h]; decide), h]; rfl
  · rw [failed fun e => by rw [e] at h; exact absurd h (by decide), relayedStatus_reserved h]

/-- Settles O23: the entry, the counter and the log read off the state that O22 gives. -/
theorem wrongResultLengthIsDamaged : Obligations.WrongResultLengthIsDamaged := by
  unfold Obligations.WrongResultLengthIsDamaged
  intro p ticket n data s i v r b u hl hn hd hv hst hp ht hlen
  have relayed := matchedResultIsRelayed p 0 ticket n data s i v r hl hn hd hv hst hp ht
  obtain ⟨_, damaged, _⟩ := relayed
  refine ⟨_, damaged rfl hlen, rfl, ?_, ?_, fun room => ?_⟩
  · rw [(unmoved_refreshIdle p _).entry, recordFault_entry]
    show Entry.live ((u.setEntry i _).entry i) = _
    rw [State.entry_setEntry_self, hst]
    rfl
  · rw [refreshIdle_stale, (recordFault_port ..).stale]
    show ((s.setPort p _).port p).stale = _
    rw [State.port_setPort_self]
  · rw [refreshIdle_faultLog, recordFault_faultLog]
    exact if_pos room

/-- Settles O24: no entry matches, and neither the counter nor the record concerns the ticket table. -/
theorem unmatchedResultIsStale : Obligations.UnmatchedResultIsStale := by
  unfold Obligations.UnmatchedResultIsStale
  intro p st ticket n data s b hl ht hn hd other
  have unmatched : s.matchResult p ticket = none := by
    refine Option.eq_none_iff_forall_ne_some.mpr fun (i, v) hm => ?_
    obtain ⟨hi, hv, r, hr, hp⟩ := (matchResult_eq_some_iff ht).mp hm
    exact other i v r hi hv hr hp
  have counted : (s.resultTaken p).modPort p (fun b => { b with stale := b.stale + 1 }) = s.setPort p { b with
      link := { b.link with framesIn := b.link.framesIn + 1, consumedB := b.link.consumedB + 1, creditPending := true }
      stale := b.stale + 1 } := by
    simp [State.resultTaken, b]
  refine ⟨_, exec_branchResult_stale hl ht hn hd st unmatched, congrArg _ counted, ?_, ?_, ?_, ?_, fun room => ?_⟩
  all_goals rw [staleResult, counted]
  · rw [recordFault_entries]; rfl
  · rw [recordFault_replyLane]; rfl
  · rw [recordFault_sentOrder]; rfl
  · rw [(recordFault_port ..).stale, State.port_setPort_self]
  · rw [recordFault_faultLog]
    exact if_pos room

end Sys2Proof.Machine
end

section
/-! Host tickets (O53): an entry takes a ticket only where the decoder takes a READ, and then one that no live entry carries (R43,
R62). -/

namespace Sys2Proof.Machine

-- The theorems are checked one after the other, which bounds the memory that the check takes.
set_option Elab.async false

/-! ### Steps that keep the tickets apart -/

/-- Where no two live entries of the one state carry one host ticket, none of the next do. -/
structure Apart (s t : State) : Prop where
  distinct : s.ticketsDistinct → t.ticketsDistinct

theorem Apart.refl (s : State) : Apart s s := ⟨id⟩

theorem Apart.trans {s t u : State} (h : Apart s t) (k : Apart t u) : Apart s u := ⟨k.distinct ∘ h.distinct⟩

theorem apart_foldl {α : Type} {f : State → α → State} (h : ∀ s x, Apart s (f s x)) (l : List α) (s : State) :
    Apart s (l.foldl f s) := by
  induction l generalizing s with
  | nil => exact .refl s
  | cons x l ih => exact (h s x).trans (ih _)

section
variable {s t : State}

/-- No entry takes a ticket. -/
theorem apart_of_fewer (h : ∀ i k, t.ticketOf i = some k → s.ticketOf i = some k) : Apart s t :=
  ⟨fun hs i j k hi hj => hs i j k (h i k hi) (h j k hj)⟩

/-- The entries stay. -/
theorem apart_of_entries (entries : t.entries = s.entries := by rfl) : Apart s t :=
  apart_of_fewer fun i k h => by rw [← h, State.ticketOf, State.ticketOf, State.entry, State.entry, entries]

theorem Unmoved.apart (h : Unmoved s t) : Apart s t := apart_of_entries h.entries

/-- Every entry is FREE. -/
theorem apart_of_free (h : ∀ i, (t.entry i).live = none) : Apart s t :=
  apart_of_fewer fun i k hk => by rw [State.ticketOf, h] at hk; cases hk

end

/-! ### One entry -/

/-- The ticket of an entry after one is set. -/
theorem ticketOf_setEntry (i j : EntryIdx) (e : Entry) (s : State) :
    (s.setEntry i e).ticketOf j = if i = j then e.live.map (·.ticket) else s.ticketOf j := by
  rw [State.ticketOf, State.entry_setEntry]
  split <;> rfl

section
variable {s : State} {i : EntryIdx} {e : Entry}

/-- An entry that is set keeps its ticket, or becomes FREE. -/
theorem apart_setEntry (h : ∀ k, e.live.map (·.ticket) = some k → s.ticketOf i = some k) : Apart s (s.setEntry i e) := by
  refine apart_of_fewer fun j k hj => ?_
  rw [ticketOf_setEntry] at hj
  split at hj
  · rename_i he; exact he ▸ h k hj
  · exact hj

/-- An entry that is set takes a ticket that no live entry carries. -/
theorem apart_setEntry_fresh {k : BitVec 6} (hk : e.live.map (·.ticket) = some k) (fresh : ∀ j, s.ticketOf j ≠ some k) :
    Apart s (s.setEntry i e) := by
  refine ⟨fun hs j l k' hj hl => ?_⟩
  rw [ticketOf_setEntry, hk] at hj hl
  split at hj <;> split at hl
  · rename_i hij hil; exact hij.symm.trans hil
  · exact absurd (hl.trans hj.symm) (fresh l)
  · exact absurd (hj.trans hl.symm) (fresh j)
  · exact hs j l k' hj hl

end

/-- An answer keeps the ticket of its entry (R61). -/
theorem apart_toReplying (i : EntryIdx) (st : Status) (data : List Byte) (s : State) : Apart s (toReplying i st data s) := by
  obtain ⟨e, _⟩ | ⟨v, hv, _, e⟩ := toReplying_cases i st data s <;> rw [e]
  · exact .refl s
  · have answered : Apart s (s.setEntry i ⟨(s.entry i).epoch, some { v with stage := .replying v.stage.route st data }⟩) :=
      apart_setEntry fun k hk => by rw [← hk, State.ticketOf, hv]; rfl
    exact answered.trans apart_of_entries

theorem apart_setStage (i : EntryIdx) (st : Stage) (s : State) : Apart s (setStage i st s) :=
  apart_setEntry fun k hk => by rw [← hk, State.ticketOf, Option.map_map]; rfl

theorem apart_endHeld (st : Status) (h : Held) (s : State) : Apart s (endHeld st h s) := by
  unfold endHeld
  split
  · exact apart_toReplying ..
  · exact .refl s

/-! ### Ports and links -/

theorem apart_enterWaking (started : Bool) (p : PortIdx) (s : State) : Apart s (enterWaking started p s) :=
  .trans (t := s.modPort p _) apart_of_entries (unmoved_modLink ..).apart

theorem apart_startTraining (l : Link) (s : State) : Apart s (startTraining l s) := by
  have training : Apart s (setTraining l s) := by cases l <;> exact apart_of_entries
  exact training.trans ((unmoved_modLink ..).trans (unmoved_dueSync ..)).apart

/-! ### Hold lists and branch egress queues -/

theorem apart_failRun (w : WindowIdx) (n : Nat) (s : State) : Apart s (failRun w n s) := by
  induction n generalizing s with
  | zero => exact .refl s
  | succ n ih =>
    simp only [failRun]
    split
    · split
      · exact .refl s
      · rename_i h rest _
        split
        · exact .refl s
        · exact .trans (t := s.setHoldList w rest) apart_of_entries
            ((apart_endHeld ..).trans ((unmoved_recordFault ..).apart.trans (ih _)))
    · exact .refl s

theorem apart_examineHeads (w : WindowIdx) (s : State) : Apart s (examineHeads w s) := apart_failRun ..

theorem apart_examineAll (s : State) : Apart s (examineAll s) := apart_foldl (fun s w => apart_examineHeads w s) _ s

theorem apart_examinePort (p : PortIdx) (s : State) : Apart s (examinePort p s) :=
  apart_foldl (fun s w => by split; exacts [apart_examineHeads w s, .refl s]) _ s

theorem apart_placeEgress (p : PortIdx) (q : Queued) (s : State) : Apart s (placeEgress p q s) := by
  obtain ⟨b, e⟩ := placeEgress_frame p q s
  rw [e]
  exact apart_of_entries

theorem apart_release (w : WindowIdx) (s : State) : Apart s (release w s) := by
  unfold release
  split
  · exact .refl s
  · rename_i h rest _
    refine .trans (t := s.setHoldList w rest) apart_of_entries ?_
    cases h.body with
    | read i => exact (apart_setStage ..).trans (apart_placeEgress ..)
    | write d => exact apart_placeEgress ..

theorem apart_grantLoop (p : PortIdx) (n : Nat) (s : State) : Apart s (grantLoop p n s) := by
  induction n generalizing s with
  | zero => exact .refl s
  | succ n ih =>
    simp only [grantLoop]
    split
    · split
      · exact (apart_release ..).trans ((apart_examineHeads ..).trans (ih _))
      · exact .refl s
    · exact .refl s

theorem apart_grantWindows (p : PortIdx) (s : State) : Apart s (grantWindows p s) := apart_grantLoop ..

theorem apart_grantAll (s : State) : Apart s (grantAll s) := apart_foldl (fun s p => apart_grantWindows p s) _ s

/-- A port that enters TRAINING takes requests again (R34, R92, R105). -/
theorem apart_openPort (p : PortIdx) (s : State) : Apart s (grantWindows p (startTraining (.branch p) s)) :=
  (apart_startTraining ..).trans (apart_grantWindows ..)

theorem apart_flush (st : PortState) (p : PortIdx) (s : State) : Apart s (flush st p s) := by
  have answered := apart_foldl (fun s i => apart_toReplying i .unclaimed [] s) (s.flushAnswers p) s
  unfold flush
  refine answered.trans (.trans (t := State.modPort _ p (PortBlock.silence st)) apart_of_entries ?_)
  simp only
  split
  · exact .refl _
  · exact (unmoved_recordFault ..).apart

theorem apart_portDown (st : PortState) (cause : Option FaultKind) (p : PortIdx) (s : State) :
    Apart s (portDown st cause p s) := by
  unfold portDown
  cases cause with
  | none => exact (apart_flush ..).trans (apart_examinePort ..)
  | some k => exact (unmoved_recordFault ..).apart.trans ((apart_flush ..).trans (apart_examinePort ..))

theorem apart_portFail (cause : FaultKind) (p : PortIdx) (s : State) : Apart s (portFail cause p s) :=
  (apart_portDown ..).trans (unmoved_modLink ..).apart

/-- Trunk loss frees every entry, and nothing after it gives one a ticket (R79). -/
theorem apart_trunkLoss (cause : FaultKind) (s : State) : Apart s (trunkLoss cause s) := by
  have freed : ∀ u : State, Apart u (dropReads (freeEntries u)) := fun u =>
    apart_of_free fun i => by simp [State.entry, dropReads, freeEntries]
  have emptied : Apart s (dropIngress { s with trunkState := .down, trunk := s.trunk.silence }) := apart_of_entries
  exact emptied.trans ((freed _).trans ((apart_grantAll _).trans (unmoved_trunkLoss cause s).apart))

/-! ### The management unit -/

theorem apart_endAllHeld (w : WindowIdx) (st : Status) (k : FaultKind) (s : State) : Apart s (endAllHeld w st k s) := by
  have ended := apart_foldl (fun s h => apart_endHeld st h s) (s.holdList w) (s.setHoldList w [])
  unfold endAllHeld
  refine .trans (t := s.setHoldList w []) apart_of_entries (ended.trans ?_)
  simp only
  split
  · exact .refl _
  · exact (unmoved_recordFault ..).apart

theorem apart_writeWindow (w : WindowIdx) (data : List Byte) (a : HostAddr) (s : State) : Apart s (writeWindow w data a s) := by
  unfold writeWindow
  split
  · rename_i r _
    unfold applyWindow
    refine .trans (t := s.setWindow w r) apart_of_entries ?_
    simp only
    split
    · split
      · exact (apart_examineHeads ..).trans (apart_grantWindows ..)
      · exact .refl _
      · exact apart_endAllHeld ..
    · exact apart_endAllHeld ..
  · exact (unmoved_recordFault ..).apart

/-- ROUTER RESET frees every entry (R180). -/
theorem apart_clearRouter (s : State) : Apart s (clearRouter s) :=
  apart_of_free fun i => by simp [State.entry, clearRouter]

theorem apart_withField {v : Option Nat} {f : Nat → State → State} (h : ∀ n s, Apart s (f n s)) (s : State) :
    Apart s (withField v f s) := by
  cases v with
  | none => exact .refl s
  | some n => exact h n s

theorem apart_writeControl (at' : Nat) (data : List Byte) (s : State) : Apart s (writeControl at' data s) := by
  unfold writeControl
  refine (apart_withField (fun _ _ => apart_of_entries) s).trans ((apart_withField (fun _ _ => apart_of_entries) _).trans
    ((apart_withField (fun _ _ => apart_of_entries) _).trans (apart_withField (fun _ u => ?_) _)))
  split
  · exact apart_clearRouter u
  · exact .refl u

theorem apart_clearCounters (at' : Nat) (data : List Byte) (base : Nat) (l : Link) (s : State) :
    Apart s (clearCounters at' data base l s) := by
  have clear : ∀ field f u, Apart u (clearCounter at' data field f l u) := fun _ _ u =>
    apart_withField (fun _ _ => (unmoved_modLink ..).apart) u
  unfold clearCounters
  exact (clear ..).trans ((clear ..).trans ((clear ..).trans (clear ..)))

theorem apart_writeEnable (p : PortIdx) (on : Bool) (s : State) : Apart s (writeEnable p on s) := by
  unfold writeEnable
  split
  · split
    · exact apart_openPort p s
    · exact .refl s
  · split
    · exact .refl s
    · exact apart_portDown ..

theorem apart_portCommand (p : PortIdx) (code : Nat) (s : State) : Apart s (portCommand p code s) := by
  have result := fun r => (unmoved_setResult p r s).apart
  unfold portCommand commandDoze commandWake commandReset
  split
  · split
    · refine (result .accepted).trans ?_
      simp only
      split <;> exact apart_of_entries
    · exact result _
  · split
    · split
      · exact (result _).trans (apart_enterWaking ..)
      · exact result _
    · split
      · split
        · exact result _
        · exact (result _).trans ((apart_portDown ..).trans (apart_openPort p _))
      · exact .refl s

theorem apart_writePort (p : PortIdx) (at' : Nat) (data : List Byte) (s : State) : Apart s (writePort p at' data s) := by
  have field : ∀ {v : Option Nat} {f : Nat → PortBlock → PortBlock} (s : State),
      Apart s (withField v (fun n s => s.modPort p (f n)) s) := fun s => apart_withField (fun _ _ => apart_of_entries) s
  unfold writePort
  exact (apart_withField (fun _ _ => apart_writeEnable ..) s).trans ((field _).trans
    ((apart_withField (fun _ _ => (unmoved_writeInterval ..).apart) _).trans ((field _).trans ((field _).trans
      ((apart_clearCounters ..).trans ((field _).trans (apart_withField (fun _ _ => apart_portCommand ..) _)))))))

theorem apart_writeLine (i : LineIdx) (at' : Nat) (data : List Byte) (s : State) : Apart s (writeLine i at' data s) := by
  have field : ∀ {v : Option Nat} {f : Nat → State → EventLine} (s : State),
      Apart s (withField v (fun n s => s.setLine i (f n s)) s) := fun s => apart_withField (fun _ _ => apart_of_entries) s
  unfold writeLine
  exact (field s).trans ((field _).trans ((unmoved_serveClaims _).apart.trans ((field _).trans (unmoved_serveClaims _).apart)))

theorem apart_writeLogControl (at' : Nat) (data : List Byte) (s : State) : Apart s (writeLogControl at' data s) := by
  unfold writeLogControl
  refine (apart_withField (fun _ _ => apart_of_entries) s).trans (apart_withField (fun _ u => ?_) _)
  split
  · exact apart_of_entries
  · exact .refl u

/-- What the management unit does with a WRITE gives no entry a ticket (R172 to R174). -/
theorem apart_manageWrite (a : HostAddr) (data : List Byte) (s : State) : Apart s (manageWrite a data s) := by
  unfold manageWrite
  simp only
  split
  · rename_i r at' _
    split
    · cases r with
      | window w => exact apart_writeWindow ..
      | control => exact apart_writeControl ..
      | port p => exact apart_writePort ..
      | trunk => exact apart_clearCounters ..
      | line i => exact apart_writeLine ..
      | logControl => exact apart_writeLogControl ..
      | identity | routerTime | view i | logHead => exact .refl s
    · exact (unmoved_recordFault ..).apart
  · exact (unmoved_recordFault ..).apart

theorem apart_manageRead (t : BitVec 6) (a : HostAddr) (n : Nat) (s : State) : Apart s (manageRead t a n s) := by
  have placed : ∀ f, Unmoved s (placeGeneral f { s with arbLast := .decoder }) := fun _ => {}
  unfold manageRead
  simp only
  split
  · exact (placed _).apart
  · exact ((placed _).trans (unmoved_recordFault ..)).apart

/-! ### The decoder -/

/-- A READ whose ticket is live is turned away as TICKET_REUSE, so any other frame carries no live ticket (R43). -/
theorem fresh_of_fate {s : State} {f : HostFrame} (h : s.fate f ≠ .reuse) : s.fresh f :=
  fun _ ht _ hj => h (fate_of_liveTicket ht hj)

theorem Unmoved.fresh {s t : State} (h : Unmoved s t) {f : HostFrame} (hf : s.fresh f) : t.fresh f :=
  fun k hk j => by rw [State.ticketOf, h.entry]; exact hf k hk j

section
variable {s : State} {f : HostFrame} (hf : s.fresh f)
include hf

/-- The entry of a READ takes the READ's ticket, which no live entry carries (R54, R62). -/
theorem apart_allocateFree {t : BitVec 6} (hb : f.body = .read t) {w : Option WindowIdx} {st : Stage}
    {next : EntryIdx → State → State} (hn : ∀ i u, Apart u (next i u)) : Apart s (allocateFree f t w st next s) := by
  cases hi : s.freeEntry with
  | none => simp only [allocateFree, hi]; exact .refl s
  | some i =>
    rw [allocateFree_eq hi]
    exact (apart_setEntry_fresh rfl (hf t hb)).trans (hn i _)

theorem apart_takeFailed (k : FaultKind) (st : Status) (w : Option WindowIdx) : Apart s (takeFailed f k st w s) := by
  unfold takeFailed
  refine Apart.trans ?_ (unmoved_recordFault ..).apart
  split
  · rename_i hb; exact apart_allocateFree hf hb fun _ _ => apart_of_entries
  · exact .refl s

theorem apart_takeHold (w : WindowIdx) : Apart s (takeHold f w s) := by
  unfold takeHold
  split
  · rename_i hb; exact apart_allocateFree hf hb fun _ _ => apart_of_entries
  · exact apart_of_entries

theorem apart_takeQueue (w : WindowIdx) : Apart s (takeQueue f w s) := by
  unfold takeQueue
  split
  · rename_i hb; exact apart_allocateFree hf hb fun _ _ => apart_placeEgress ..
  · exact apart_placeEgress ..

end

/-- Taking a frame that carries no live ticket, or turning one away that does (R43, R54). -/
theorem apart_takeFrame {s : State} {f : HostFrame} {d : Fate} (hd : d ≠ .reuse → s.fresh f) : Apart s (takeFrame f d s) := by
  have popped := unmoved_popHead f s
  refine popped.apart.trans ?_
  show Apart (popHead f s) (takeFate f d (popHead f s))
  cases d with
  | reuse => exact (unmoved_recordFault ..).apart
  | management =>
    simp only [takeFate]
    split
    · exact apart_manageRead ..
    · exact apart_manageWrite ..
  | failed k st w => exact apart_takeFailed (popped.fresh (hd (by simp))) k st w
  | toHold w => exact apart_takeHold (popped.fresh (hd (by simp))) w
  | toQueue w => exact apart_takeQueue (popped.fresh (hd (by simp))) w

/-- The decoder's run of frames (R41, R42): the grants before a taking touch no entry, so the fate still says whether the
ticket is live. -/
theorem apart_decodeLoop (n : Nat) (fresh : Bool) (s : State) : Apart s (decodeLoop n fresh s) := by
  induction n generalizing fresh s with
  | zero => exact (unmoved_serveClaims s).apart
  | succ n ih =>
    simp only [decodeLoop]
    split
    · exact (unmoved_serveClaims s).apart
    · rename_i f _ _
      have claimed := unmoved_claimGeneral f (s.fate f) s
      refine claimed.apart.trans ?_
      split
      · exact (apart_takeFrame fun hd => claimed.fresh (fresh_of_fate hd)).trans (ih ..)
      · have waits : ∀ u, Unmoved u (waitHead fresh f (s.fate f) u) := fun _ => {}
        exact ((waits _).trans (unmoved_serveClaims _)).apart

theorem apart_decodeRun (fresh : Bool) (s : State) : Apart s (decodeRun fresh s) := apart_decodeLoop ..

/-- The end of a happening (R53, R141). -/
theorem apart_settle (s : State) : Apart s (settle s) := (unmoved_serveClaims s).apart.trans (apart_decodeRun ..)

theorem apart_enqueueTrunk (f : HostFrame) (s : State) : Apart s (enqueueTrunk f s) := by
  have joined : Apart s { s with ingress := s.ingress ++ [f] } := apart_of_entries
  unfold enqueueTrunk
  simp only
  split
  · exact joined.trans (apart_decodeRun ..)
  · exact joined

/-! ### Deadlines -/

theorem apart_whenPowered {f : State → State} {s : State} (h : Apart s (f s)) : Apart s (whenPowered f s) := by
  unfold whenPowered
  split
  · exact h
  · exact .refl s

theorem apart_resendReached (l : Link) (s : State) : Apart s (resendReached l s) := by
  unfold resendReached
  simp only
  split
  · split
    · exact (unmoved_dueSync l s).apart
    · cases l with
      | trunk => exact (apart_trunkLoss ..).trans (apart_settle _)
      | branch p => exact (apart_portFail ..).trans (apart_settle _)
  · exact .refl s

theorem apart_retryReached (l : Link) (s : State) : Apart s (retryReached l s) := by
  unfold retryReached
  split
  · cases l with
    | trunk => exact apart_startTraining ..
    | branch p => exact (apart_openPort p s).trans (apart_settle _)
  · exact .refl s

theorem apart_expire (i : EntryIdx) (v : Live) (s : State) : Apart s (expire i v s) :=
  (apart_toReplying ..).trans (unmoved_recordFault ..).apart

theorem apart_ticketReached (i : EntryIdx) (s : State) : Apart s (ticketReached i s) := by
  unfold ticketReached
  split
  · exact .refl s
  · split
    · split
      · split
        · rename_i w _
          exact .trans (t := removeHeld w i s) apart_of_entries ((apart_expire ..).trans ((apart_examineHeads ..).trans
            ((apart_grantWindows ..).trans (apart_settle _))))
        · exact (apart_expire ..).trans (apart_settle _)
      · rename_i r _
        exact .trans (t := removeQueued r.port i s) apart_of_entries ((apart_expire ..).trans ((apart_grantWindows ..).trans
          ((unmoved_refreshIdle ..).apart.trans (apart_settle _))))
      · exact (apart_expire ..).trans ((unmoved_refreshIdle ..).apart.trans (apart_settle _))
      · exact .refl s
    · exact .refl s

theorem apart_headWaitReached (s : State) : Apart s (headWaitReached s) := by
  unfold headWaitReached
  split
  · exact .refl s
  · split
    · exact ((unmoved_popHead ..).trans (unmoved_recordFault ..)).apart.trans (apart_decodeRun ..)
    · exact .refl s

theorem apart_wakeReached (p : PortIdx) (s : State) : Apart s (wakeReached p s) := by
  unfold wakeReached
  simp only
  split
  · exact (apart_portFail ..).trans (apart_settle _)
  · exact .refl s

/-! ### Received frames -/

/-- A frame that arrives keeps the tickets apart where what an open link does with it keeps them so. -/
theorem apart_receive {training live doze waking : State → State} {l : Link} (size : Nat)
    (ht : ∀ u, Apart u (training u)) (hl : ∀ u, u.linkOpen l → Apart u (live u)) (hd : ∀ u, Apart u (doze u))
    (hw : ∀ u, Apart u (waking u)) (s : State) : Apart s (receive l size training live doze waking s) := by
  have counted : Unmoved s (s.modLink l LinkEnd.countIn) := unmoved_modLink ..
  unfold receive
  split
  · simp only
    split
    · exact .refl s
    · exact counted.apart.trans (ht _)
    · rename_i h; exact counted.apart.trans (hl _ (counted.linkOpen (linkOpen_of_rxPhase (by rw [h]; decide))))
    · exact counted.apart.trans (hd _)
    · exact counted.apart.trans (hw _)
  · exact (unmoved_crcFail l s).apart

theorem apart_discardFrame (l : Link) (s : State) : Apart s (discardFrame l s) := (unmoved_discardFrame l s).apart

theorem apart_frameInvalid (l : Link) (k : Byte) (c : Option CreditClass) (s : State) : Apart s (frameInvalid l k c s) :=
  (unmoved_frameInvalid ..).apart

/-- A link enters UP with what `f` does to its end, and what follows (R88, R89). -/
theorem apart_toUp (l : Link) (f : LinkEnd → LinkEnd) (s : State) : Apart s (afterUp l ((setUp l s).modLink l f)) := by
  have up : Apart s (setUp l s) := by cases l <;> exact apart_of_entries
  have linked := (unmoved_modLink l f (setUp l s)).apart
  refine up.trans (linked.trans ?_)
  cases l with
  | trunk => exact apart_settle _
  | branch p => exact (unmoved_refreshIdle p _).apart

theorem apart_receiveSync (l : Link) (size : Nat) (a b : Byte) (s : State) : Apart s (receiveSync l size a b s) := by
  have toUp : ∀ u, Apart u (syncToUp l a b u) := apart_toUp l _
  have whenLive : ∀ u, Apart u (syncWhenLive l a b u) := by
    intro u
    unfold syncWhenLive
    split
    · exact (unmoved_modLink ..).apart
    · split
      · exact (unmoved_modLink ..).apart
      · exact toUp u
  unfold receiveSync
  refine apart_receive size (fun u => ?_) (fun u _ => ?_) (fun u => ?_) (fun u => ?_) s <;> split
  · exact toUp u
  · exact apart_discardFrame ..
  · exact whenLive u
  · exact apart_frameInvalid ..
  · exact toUp u
  · exact apart_frameInvalid ..
  · exact toUp u
  · exact apart_discardFrame ..

theorem apart_receiveSyncAck (l : Link) (size : Nat) (a b : Byte) (s : State) : Apart s (receiveSyncAck l size a b s) := by
  unfold receiveSyncAck
  refine apart_receive size (fun u => ?_) (fun u _ => ?_) (apart_frameInvalid l 0x90 none) (apart_discardFrame l) s <;> split
  · exact apart_toUp l _ u
  · exact apart_discardFrame ..
  · exact .refl u
  · exact apart_frameInvalid ..

theorem apart_receiveCredit (l : Link) (size : Nat) (a b : Byte) (s : State) : Apart s (receiveCredit l size a b s) := by
  unfold receiveCredit
  refine apart_receive size (apart_discardFrame l) (fun u _ => ?_) (apart_frameInvalid l 0xA0 none) (apart_discardFrame l) s
  split
  · exact (unmoved_modLink ..).apart
  · exact apart_frameInvalid ..

theorem apart_trunkReset (s : State) : Apart s (trunkReset s) := by
  refine (apart_clearRouter s).trans (Apart.trans ?_ (apart_startTraining ..))
  exact apart_of_entries

theorem apart_receiveRequest (r : TrunkRequest) (s : State) : Apart s (receiveRequest r s) := by
  refine apart_receive _ (apart_discardFrame .trunk) (fun u _ => ?_) .refl .refl s
  unfold acceptRequest
  split
  · split
    · exact apart_enqueueTrunk ..
    · exact (unmoved_creditOverrun ..).apart
  · exact apart_frameInvalid ..

theorem apart_acceptUpWrite (p : PortIdx) (n : Nat) (a : ModuleAddr) (data : List Byte) (s : State) :
    Apart s (acceptUpWrite p n a data s) := by
  unfold acceptUpWrite
  simp only
  split
  · exact (unmoved_creditOverrun ..).apart
  · split
    · exact (unmoved_refuseUpWrite ..).apart
    · split
      · refine Apart.trans ?_ ((unmoved_refreshIdle ..).apart.trans (apart_settle _))
        exact apart_of_entries
      · exact (unmoved_refuseUpWrite ..).apart

theorem apart_matchedResult (i : EntryIdx) (v : Live) (st : BitVec 3) (n : Byte) (data : List Byte) (s : State) :
    Apart s (matchedResult i v st n data s) := by
  unfold matchedResult
  split
  · split
    · exact apart_toReplying ..
    · exact (apart_toReplying ..).trans (unmoved_recordFault ..).apart
  · exact apart_toReplying ..

theorem apart_acceptResult (p : PortIdx) (size : Nat) (st : BitVec 3) (ticket n : Byte) (data : List Byte) (s : State) :
    Apart s (acceptResult p size st ticket n data s) := by
  unfold acceptResult
  split
  · refine (unmoved_consume (.branch p) .b s).apart.trans ?_
    simp only
    split
    · exact (apart_matchedResult ..).trans (unmoved_refreshIdle ..).apart
    · refine Apart.trans ?_ (unmoved_recordFault ..).apart
      exact apart_of_entries
  · exact apart_frameInvalid ..

/-! ### Signals and the tick -/

theorem apart_loseSignal (l : Link) (s : State) : Apart s (loseSignal l s) := by
  have gone : Apart s (s.modLink l fun e => { e with signal := false }) := (unmoved_modLink ..).apart
  unfold loseSignal
  split
  · cases l with
    | trunk =>
      simp only
      split
      · exact gone
      · exact gone.trans ((apart_trunkLoss ..).trans (apart_settle _))
      · exact gone.trans ((apart_trunkLoss ..).trans (apart_settle _))
    | branch p =>
      simp only
      split
      · exact gone.trans ((apart_portFail ..).trans (apart_settle _))
      · exact gone
  · exact .refl s

theorem apart_tick (s : State) : Apart s (tick s) := by
  have now := (unmoved_setTime s).apart
  unfold tick
  simp only
  split
  · exact now.trans ((apart_examineAll _).trans ((apart_grantAll _).trans (apart_settle _)))
  · exact now

/-- In the power-on state every entry is FREE (R184, R185). -/
theorem apart_blank (s : State) (porN : Bool) (strap : BitVec 2) (q : List Instr) : Apart s (State.blank porN strap q) :=
  apart_of_free fun i => by rw [entry_blank]

/-! ### Transmissions -/

theorem apart_markSent (p : PortIdx) (b : ReqBody) (s : State) : Apart s (markSent p b s) := by
  unfold markSent
  split
  · exact .refl s
  · split
    · split
      · exact (apart_setStage ..).trans apart_of_entries
      · exact .refl s
    · exact .refl s

theorem apart_sendEgress (p : PortIdx) (q : Queued) (s : State) : Apart s (sendEgress p q s) := by
  refine Apart.trans ?_ ((apart_markSent ..).trans ((apart_grantWindows ..).trans
    ((unmoved_refreshIdle ..).apart.trans (apart_settle _))))
  exact apart_of_entries

/-- The entry whose answer is transmitted becomes FREE (R76). -/
theorem apart_sendReply (s : State) : Apart s (sendReply s) := by
  unfold sendReply
  split
  · exact .refl s
  · rename_i i rest _
    have freed : Apart s (s.setEntry i { s.entry i with live := none }) := apart_setEntry fun _ hk => by cases hk
    exact freed.trans (Apart.trans apart_of_entries (apart_settle _))

theorem apart_sendGeneral (s : State) : Apart s (sendGeneral s) := by
  unfold sendGeneral
  split
  · exact .refl s
  · exact Apart.trans apart_of_entries (apart_settle _)

/-- A transmission that is taken where it is ready, and else leaves the state. -/
theorem apart_ifReady {s : State} {ready : Prop} [Decidable ready] {sent : State} (h : Apart s sent) :
    Apart s (if ready then sent else s) := by
  split
  · exact h
  · exact .refl s

/-! ### Every command -/

/-- Every command keeps the host tickets of the live entries apart. -/
theorem apart_exec {c : Instr} {s t : State} (h : exec c s = .next t) : Apart s t := by
  suffices all : ∃ u, exec c s = .next u ∧ Apart s u by
    obtain ⟨u, hu, apart⟩ := all
    rw [h] at hu
    obtain rfl := Host.Outcome.next.inj hu
    exact apart
  cases c with
  | porAssert => exact ⟨_, rfl, apart_blank ..⟩
  | porRelease id1 id0 =>
    exact ⟨_, rfl, (apart_blank s true (strapOf id1 id0) s.pending).trans (apart_startTraining ..)⟩
  | signalLost l => exact ⟨_, rfl, apart_whenPowered (apart_loseSignal l s)⟩
  | crcError l => exact ⟨_, rfl, (unmoved_crcFail l s).apart⟩
  | trunkIngressFrame f => exact ⟨_, rfl, apart_receiveRequest f s⟩
  | trunkReset size =>
    refine ⟨_, rfl, apart_receive size (apart_discardFrame _) (fun u _ => ?_) .refl .refl s⟩
    split
    · exact apart_trunkReset u
    · exact apart_frameInvalid ..
  | syncReceived l size a b => exact ⟨_, rfl, apart_receiveSync ..⟩
  | syncAckReceived l size a b => exact ⟨_, rfl, apart_receiveSyncAck ..⟩
  | creditReceived l size a b => exact ⟨_, rfl, apart_receiveCredit ..⟩
  | moduleWriteArrival p size n a data =>
    refine ⟨_, rfl, apart_receive size (apart_discardFrame _) (fun u _ => ?_) (apart_frameInvalid _ _ _)
      (apart_discardFrame _) s⟩
    split
    · exact apart_acceptUpWrite ..
    · exact apart_frameInvalid ..
  | branchResultArrival p size st ticket n data =>
    exact ⟨_, rfl, apart_receive size (apart_discardFrame _) (fun u _ => apart_acceptResult p size st ticket n data u)
      (apart_frameInvalid _ _ _) (apart_discardFrame _) s⟩
  | eventFrame p size code =>
    refine ⟨_, rfl, apart_receive size (apart_discardFrame _) (fun u _ => ?_) (apart_frameInvalid _ _ _)
      (apart_discardFrame _) s⟩
    split
    · exact (unmoved_arrival ..).apart
    · exact apart_frameInvalid ..
  | dozeAck p size =>
    refine ⟨_, rfl, apart_receive size (apart_discardFrame _) (fun u opened => ?_) (apart_frameInvalid _ _ _)
      (apart_discardFrame _) s⟩
    split
    · exact (unmoved_acceptDozeAck opened).apart
    · exact apart_frameInvalid ..
  | moduleWake p size =>
    refine ⟨_, rfl, apart_receive size (apart_discardFrame _) (fun u _ => ?_) (fun u => ?_) (apart_discardFrame _) s⟩ <;> split
    · exact .refl u
    · exact apart_frameInvalid ..
    · exact apart_enterWaking ..
    · exact apart_frameInvalid ..
  | resendDeadline l => exact ⟨_, rfl, apart_whenPowered (apart_resendReached l s)⟩
  | retryDeadline l => exact ⟨_, rfl, apart_whenPowered (apart_retryReached l s)⟩
  | ticketDeadline i => exact ⟨_, rfl, apart_whenPowered (apart_ticketReached i s)⟩
  | headWaitDeadline => exact ⟨_, rfl, apart_whenPowered (apart_headWaitReached s)⟩
  | answerDeadline p => exact ⟨_, rfl, apart_whenPowered (unmoved_answerReached p s).apart⟩
  | wakeDeadline p => exact ⟨_, rfl, apart_whenPowered (apart_wakeReached p s)⟩
  | idleDeadline p => exact ⟨_, rfl, apart_whenPowered (unmoved_idleReached p s).apart⟩
  | syncTransmit l | syncAckTransmit l | creditTransmit l =>
    exact ⟨_, rfl, apart_whenPowered (apart_ifReady (unmoved_modLink ..).apart)⟩
  | dozeReqTransmit p | wakeTransmit p => exact ⟨_, rfl, apart_whenPowered (apart_ifReady apart_of_entries)⟩
  | branchEgressTransmit p =>
    refine ⟨_, rfl, apart_whenPowered ?_⟩
    cases s.egressReady p with
    | none => exact .refl s
    | some q => exact apart_sendEgress p q s
  | replyLaneTransmit => exact ⟨_, rfl, apart_whenPowered (apart_ifReady (apart_sendReply s))⟩
  | generalQueueTransmit => exact ⟨_, rfl, apart_whenPowered (apart_ifReady (apart_sendGeneral s))⟩
  | signalPresent l | transmitterFree l => exact ⟨_, rfl, apart_whenPowered (unmoved_modLink ..).apart⟩
  | routerTimeTick => exact ⟨_, rfl, apart_whenPowered (apart_tick s)⟩
  | disallowedKindFrame l size kind =>
    exact ⟨_, rfl, apart_receive size (apart_discardFrame l) (fun u _ => apart_frameInvalid l kind none u)
      (apart_frameInvalid l kind none) (apart_discardFrame l) s⟩
  | windowRecordWrite w bytes | apertureBaseWrite v | ticketLifetimeWrite v | headWaitLimitWrite v | routerReset
  | portEnable p e u v | autoDozeIntervalWrite p e u v | dozeCommand p | wakeCommand p | portResetCommand p
  | eventLineEnableWrite i e v | ack i | clear i | pop | droppedCountClear v | counterClear l k n v
  | managementWrite off data => exact ⟨_, rfl, apart_receiveRequest ..⟩

/-- Settles O53: a step runs one command, or none, and each command keeps the tickets apart. -/
theorem stepsKeepTicketsDistinct : Obligations.StepsKeepTicketsDistinct := by
  unfold Obligations.StepsKeepTicketsDistinct
  intro s t distinct h
  refine Apart.distinct ?_ distinct
  unfold step at h
  split at h
  · obtain rfl := Host.Outcome.next.inj h
    exact .refl s
  · rename_i c rest _
    exact .trans (t := s.withPending rest) apart_of_entries (apart_exec h)

end Sys2Proof.Machine
end

section
/-! Frames that arrive on a link: what each phase of the link does with a frame, the frames that fail their checks (O14, O15),
and the frames of link control that pass them (O16 to O19). -/

namespace Sys2Proof.Machine

-- The theorems are checked one after the other, which bounds the memory that the check takes.
set_option Elab.async false

/-! ### A frame by the phase of its link -/

section
variable {l : Link} {size : Nat} {training live doze waking : State → State} {s : State}

/-- A deaf link receives nothing (R92, R102, R184, R190). -/
theorem crcFail_deaf (h : s.rxPhase l = .deaf) : crcFail l s = s := by
  simp only [crcFail, h]

/-- A frame that cannot be framed is as one whose CRC fails (R186). -/
theorem receive_unframed (h : size < 3 ∨ 73 < size) : receive l size training live doze waking s = crcFail l s := by
  have unframed : sizeFramed size = false := by
    simp only [sizeFramed, Bool.and_eq_false_iff, decide_eq_false_iff_not]
    omega
  simp only [receive, unframed, Bool.false_eq_true, if_false]

theorem receive_deaf (h : s.rxPhase l = .deaf) : receive l size training live doze waking s = s := by
  simp only [receive, h, crcFail_deaf h, ite_self]

theorem sizeFramed_of_le (h1 : 3 ≤ size) (h2 : size ≤ 73) : sizeFramed size = true := by
  simp only [sizeFramed, h1, h2, decide_true, Bool.and_self]

theorem receive_training (hz : sizeFramed size = true) (h : s.rxPhase l = .training) :
    receive l size training live doze waking s = training (s.frameIn l) := by
  simp only [receive, hz, if_true, h]; rfl

theorem receive_live (hz : sizeFramed size = true) (h : s.rxPhase l = .live) :
    receive l size training live doze waking s = live (s.frameIn l) := by
  simp only [receive, hz, if_true, h]; rfl

theorem receive_doze (hz : sizeFramed size = true) (h : s.rxPhase l = .doze) :
    receive l size training live doze waking s = doze (s.frameIn l) := by
  simp only [receive, hz, if_true, h]; rfl

theorem receive_waking (hz : sizeFramed size = true) (h : s.rxPhase l = .waking) :
    receive l size training live doze waking s = waking (s.frameIn l) := by
  simp only [receive, hz, if_true, h]; rfl

end

/-! ### The checks of R98 and R94 as propositions -/

section
variable {s : State}

theorem validRequest_iff {r : TrunkRequest} : validRequest r = true ↔ s.frameMeets (.trunkIngressFrame r) := by
  cases r with
  | read size t n a => simp [validRequest, State.frameMeets, and_assoc]; omega
  | write size n a data => simp [validRequest, validWrite, State.frameMeets, and_assoc]

theorem validWrite_iff {p : PortIdx} {size : Nat} {n : Byte} {a : ModuleAddr} {data : List Byte} :
    validWrite size 8 n data = true ↔ s.frameMeets (.moduleWriteArrival p size n a data) := by
  simp [validWrite, State.frameMeets, and_assoc]

theorem validResult_iff {p : PortIdx} {size : Nat} {st : BitVec 3} {t n : Byte} {data : List Byte} :
    validResult size t n data = true ↔ s.frameMeets (.branchResultArrival p size st t n data) := by
  simp [validResult, State.frameMeets, and_assoc]; omega

theorem validSync_iff {l : Link} {size : Nat} {a b : Byte} :
    validSync l size a b = true ↔ s.frameMeets (.syncReceived l size a b) := by
  cases l <;> simp [validSync, State.frameMeets]

/-- A SYNC-ACK has the checks of a SYNC (R98). -/
theorem validSyncAck_iff {l : Link} {size : Nat} {a b : Byte} :
    validSync l size a b = true ↔ s.frameMeets (.syncAckReceived l size a b) := by
  cases l <;> simp [validSync, State.frameMeets]

/-- The check of R94 reads the counts of the link end, which the counting of the frame leaves. -/
theorem validCredit_iff {l : Link} {size : Nat} {a b : Byte} :
    validCredit l ((s.frameIn l).linkEnd l) size a b = true ↔ s.frameMeets (.creditReceived l size a b) := by
  rw [State.frameIn, State.linkEnd_setLink]
  cases l with
  | trunk => simp only [validCredit, creditFits, Bool.and_true, Bool.and_eq_true, beq_iff_eq, decide_eq_true_eq]; rfl
  | branch p =>
    simp only [validCredit, creditFits, Bool.and_eq_true, beq_iff_eq, decide_eq_true_eq, and_assoc]; rfl

end

/-! ### Frames that fail their checks -/

/-- What the command of a frame hands to `receive`, where the frame does not pass in the link's phase: a discard without a
record in TRAINING and WAKING, FRAME_INVALID with the kind byte and the receive class in UP, DOZE_WAIT and DOZE. -/
structure Turned (c : Instr) (l : Link) (kind : Byte) (s : State) (training live doze waking : State → State) : Prop where
  training : (∀ z a b, c ≠ .syncReceived l z a b) ∧ (∀ z a b, c ≠ .syncAckReceived l z a b) ∨ ¬s.frameMeets c →
    training = discardFrame l
  live : ¬s.frameMeets c → live (s.frameIn l) = frameInvalid l kind (receiveClass c) (s.frameIn l)
  doze : s.rxPhase l = .doze →
    (∀ z a b, c ≠ .syncReceived l z a b) ∧ (∀ p z, c ≠ .moduleWake p z) ∨ ¬s.frameMeets c →
    doze = frameInvalid l kind (receiveClass c)
  waking : s.rxPhase l = .waking → (∀ z a b, c ≠ .syncReceived l z a b) ∨ ¬s.frameMeets c → waking = discardFrame l

/-- The trunk has no doze states (R83). -/
theorem rxPhase_trunk (s : State) : s.rxPhase .trunk ≠ .doze ∧ s.rxPhase .trunk ≠ .waking := by
  unfold State.rxPhase
  split
  · cases s.trunkState <;> exact ⟨RxPhase.noConfusion, RxPhase.noConfusion⟩
  · decide

/-- Every arrival is a `receive`, and a frame that does not pass is turned away. -/
theorem frame_turned {c : Instr} {l : Link} {size : Nat} {body : List Byte} (h : frameBody c = some (l, size, body)) (s : State) :
    ∃ training live doze waking, exec c s = .next (receive l size training live doze waking s) ∧
      Turned c l (body.headD 0) s training live doze waking := by
  cases c
  case trunkIngressFrame r =>
    cases r <;> obtain ⟨rfl, rfl, rfl⟩ := by simpa [frameBody] using h
    all_goals
      refine ⟨_, _, _, _, rfl, fun _ => rfl, fun bad => ?_, fun hd => absurd hd (rxPhase_trunk s).1,
        fun hw => absurd hw (rxPhase_trunk s).2⟩
      simp only [acceptRequest, mt validRequest_iff.mp bad]
      rfl
  case trunkReset z =>
    obtain ⟨rfl, rfl, rfl⟩ := by simpa [frameBody] using h
    exact ⟨_, _, _, _, rfl, fun _ => rfl, fun bad => congrFun (if_neg bad) _,
      fun hd => absurd hd (rxPhase_trunk s).1, fun hw => absurd hw (rxPhase_trunk s).2⟩
  case syncReceived k z a b =>
    obtain ⟨rfl, rfl, rfl⟩ := by simpa [frameBody] using h
    have failing (bad : ¬s.frameMeets (.syncReceived k z a b)) : ¬validSync k z a b = true := mt validSync_iff.mp bad
    refine ⟨_, _, _, _, rfl, fun bad => if_neg (failing (bad.resolve_left fun other => other.1 _ _ _ rfl)),
      fun bad => congrFun (if_neg (failing bad)) _,
      fun _ bad => if_neg (failing (bad.resolve_left fun other => other.1 _ _ _ rfl)),
      fun _ bad => if_neg (failing (bad.resolve_left fun other => other _ _ _ rfl))⟩
  case syncAckReceived k z a b =>
    obtain ⟨rfl, rfl, rfl⟩ := by simpa [frameBody] using h
    have failing (bad : ¬s.frameMeets (.syncAckReceived k z a b)) : ¬validSync k z a b = true := mt validSyncAck_iff.mp bad
    exact ⟨_, _, _, _, rfl, fun bad => if_neg (failing (bad.resolve_left fun other => other.2 _ _ _ rfl)),
      fun bad => congrFun (if_neg (failing bad)) _, fun _ _ => rfl, fun _ _ => rfl⟩
  case creditReceived k z a b =>
    obtain ⟨rfl, rfl, rfl⟩ := by simpa [frameBody] using h
    exact ⟨_, _, _, _, rfl, fun _ => rfl, fun bad => if_neg (mt validCredit_iff.mp bad), fun _ _ => rfl, fun _ _ => rfl⟩
  case moduleWriteArrival p z n a data =>
    obtain ⟨rfl, rfl, rfl⟩ := by simpa [frameBody] using h
    exact ⟨_, _, _, _, rfl, fun _ => rfl, fun bad => congrFun (if_neg (mt validWrite_iff.mp bad)) _, fun _ _ => rfl,
      fun _ _ => rfl⟩
  case branchResultArrival p z st t n data =>
    obtain ⟨rfl, rfl, rfl⟩ := by simpa [frameBody] using h
    exact ⟨_, _, _, _, rfl, fun _ => rfl, fun bad => if_neg (mt validResult_iff.mp bad), fun _ _ => rfl, fun _ _ => rfl⟩
  case eventFrame p z code =>
    obtain ⟨rfl, rfl, rfl⟩ := by simpa [frameBody] using h
    exact ⟨_, _, _, _, rfl, fun _ => rfl, fun bad => congrFun (if_neg bad) _, fun _ _ => rfl, fun _ _ => rfl⟩
  case dozeAck p z =>
    obtain ⟨rfl, rfl, rfl⟩ := by simpa [frameBody] using h
    exact ⟨_, _, _, _, rfl, fun _ => rfl, fun bad => congrFun (if_neg bad) _, fun _ _ => rfl, fun _ _ => rfl⟩
  case moduleWake p z =>
    obtain ⟨rfl, rfl, rfl⟩ := by simpa [frameBody] using h
    exact ⟨_, _, _, _, rfl, fun _ => rfl, fun bad => congrFun (if_neg bad) _,
      fun _ bad => if_neg (bad.resolve_left fun other => other.2 _ _ rfl), fun _ _ => rfl⟩
  case disallowedKindFrame k z kind =>
    obtain ⟨rfl, rfl, rfl⟩ := by simpa [frameBody] using h
    exact ⟨_, _, _, _, rfl, fun _ => rfl, fun _ => rfl, fun _ _ => rfl, fun _ _ => rfl⟩
  all_goals cases h

/-- The discard of a counted frame, which is not consumed (R97, R101, R120). -/
theorem discardFrame_frameIn (l : Link) (s : State) : discardFrame l (s.frameIn l) =
    s.setLink l { s.linkEnd l with
      framesIn := (s.linkEnd l).framesIn + 1, framesDiscarded := (s.linkEnd l).framesDiscarded + 1 } := by
  simp [discardFrame, State.frameIn, LinkEnd.countDiscard]

/-- Settles O14: what `receive` does in each phase, and the discard that `frame_turned` gives. -/
theorem framesOutsideUpAreCountedAtMost : Obligations.FramesOutsideUpAreCountedAtMost := by
  unfold Obligations.FramesOutsideUpAreCountedAtMost
  intro c s l size body e h
  obtain ⟨training, live, doze, waking, run, turned⟩ := frame_turned h s
  refine ⟨fun deaf => ?_, fun unframed => ?_, fun low high outside => ?_⟩
  · rw [run, receive_deaf deaf]
  · rw [run, receive_unframed unframed]; rfl
  · have framed := sizeFramed_of_le low high
    rcases outside with ⟨phase, bad⟩ | ⟨phase, bad⟩
    · rw [run, receive_training framed phase, turned.training bad, discardFrame_frameIn]
    · rw [run, receive_waking framed phase, turned.waking phase bad, discardFrame_frameIn]

/-- A link that hands frames on is live, and one in DOZE is not (R93, R102). -/
theorem linkLive_of_doze {l : Link} {s : State} (h : s.rxPhase l = .doze) : s.linkLive l = false := by
  cases l with
  | trunk => exact absurd h (rxPhase_trunk s).1
  | branch p =>
    unfold State.rxPhase at h
    split at h
    · cases hb : (s.port p).state <;> simp_all [State.linkLive]
    · cases h

/-- The link of a port is live by the port's state alone, whatever is written to its link end (R102). -/
theorem linkLive_setLink (l k : Link) (e : LinkEnd) (s : State) : (s.setLink l e).linkLive k = s.linkLive k := by
  cases k with
  | trunk => simp [State.linkLive]
  | branch p => simp [State.linkLive, State.port_setLink_state]

/-- A counted frame that fails its checks: discarded, consumed by its class, and recorded (R93, R98, R101). -/
theorem frameInvalid_frameIn (l : Link) (kind : Byte) (cls : Option CreditClass) (s : State) :
    frameInvalid l kind cls (s.frameIn l) = recordFault .frameInvalid (linkSource l) none none none
      (some (.one (kind.setWidth 16))) (s.setLink l { s.linkEnd l with
        framesIn := (s.linkEnd l).framesIn + 1
        framesDiscarded := (s.linkEnd l).framesDiscarded + 1
        consumedA := if cls = some .a then (s.linkEnd l).consumedA + 1 else (s.linkEnd l).consumedA
        consumedB := if cls = some .b then (s.linkEnd l).consumedB + 1 else (s.linkEnd l).consumedB
        creditPending := (s.linkEnd l).creditPending || (s.linkLive l && cls.isSome) }) := by
  simp only [frameInvalid, discardFrame_frameIn]
  cases cls with
  | none => simp
  | some c => cases c <;> simp [State.consume, LinkEnd.consume, linkLive_setLink]

/-- Settles O15: in both phases the frame goes to `frameInvalid`, and DOZE makes no CREDIT due. -/
theorem invalidFramesAreDiscardedWithARecord : Obligations.InvalidFramesAreDiscardedWithARecord := by
  unfold Obligations.InvalidFramesAreDiscardedWithARecord
  intro c s l size kind rest e h low high failing
  obtain ⟨training, live, doze, waking, run, turned⟩ := frame_turned h s
  have framed := sizeFramed_of_le low high
  rcases failing with ⟨phase, bad⟩ | ⟨phase, bad⟩
  · have up := (linkLive_of_rxPhase_live phase).1
    rw [run, receive_live framed phase, turned.live bad, List.headD_cons, frameInvalid_frameIn, up, phase, beq_self_eq_true]
  · have up := linkLive_of_doze phase
    have off : (RxPhase.doze == RxPhase.live) = false := rfl
    rw [run, receive_doze framed phase, turned.doze phase bad, List.headD_cons, frameInvalid_frameIn, up, phase, off]

/-! ### A frame whose CRC fails -/

/-- A link end that enters TRAINING with its first SYNC on the wire (R86, R87). -/
def LinkEnd.firstSync (e : LinkEnd) (a b : Byte) (now : Time) : LinkEnd :=
  { e with
    retry := none, syncAckDue := false, creditPending := false, syncDue := false, transmitting := some (.sync a b)
    framesOut := e.framesOut + 1, consumedA := 0, consumedB := 0, syncsSent := 1, resend := some (now + 100) }

/-- A link end that enters TRAINING while a frame is in transmission, its first SYNC held back (R87, log 6). -/
def LinkEnd.heldSync (e : LinkEnd) : LinkEnd :=
  { e with
    retry := none, syncAckDue := false, creditPending := false, syncDue := true, syncsSent := 0, resend := none }

section
variable {l : Link} {s : State}

theorem startTraining_of_free (h : (s.linkEnd l).transmitting = none) : startTraining l s =
    (setTraining l s).setLink l ((s.linkEnd l).firstSync (BitVec.ofNat 8 (s.freeA l)) (BitVec.ofNat 8 (s.freeB l)) s.time) := by
  cases l with
  | trunk =>
    rw [startTraining, dueSync_of_free (by simpa [setTraining] using h)]
    simp [sendSync, setTraining, LinkEnd.transmit, LinkEnd.firstSync, State.freeA, State.freeB, Config.resendInterval]
  | branch p =>
    rw [startTraining, dueSync_of_free (by simpa [setTraining] using h)]
    simp [sendSync, setTraining, LinkEnd.transmit, LinkEnd.firstSync, State.freeA, State.freeB, Config.resendInterval]

theorem startTraining_of_busy (h : (s.linkEnd l).transmitting ≠ none) :
    startTraining l s = (setTraining l s).setLink l (s.linkEnd l).heldSync := by
  cases l with
  | trunk =>
    rw [startTraining, dueSync_of_busy (by simpa [setTraining] using h)]
    simp [setTraining, LinkEnd.heldSync]
  | branch p =>
    rw [startTraining, dueSync_of_busy (by simpa [setTraining] using h)]
    simp [setTraining, LinkEnd.heldSync]

/-- An entry to TRAINING writes the state of the link and its link end, and on a port what the doze cycle holds (R87). -/
theorem startTraining_frame (l : Link) (s : State) : ∃ e, startTraining l s = (setTraining l s).setLink l e := by
  by_cases h : (s.linkEnd l).transmitting = none
  · exact ⟨_, startTraining_of_free h⟩
  · exact ⟨_, startTraining_of_busy h⟩

theorem linkTraining_startTraining (l : Link) (s : State) : (startTraining l s).linkTraining l = true := by
  obtain ⟨e, h⟩ := startTraining_frame l s
  rw [h]
  cases l <;> simp [State.linkTraining, setTraining]

/-- An entry to TRAINING leaves a port's queue. -/
theorem queue_startTraining (l : Link) (s : State) (p : PortIdx) : ((startTraining l s).port p).queue = (s.port p).queue := by
  obtain ⟨e, h⟩ := startTraining_frame l s
  rw [h]
  cases l with
  | trunk => rfl
  | branch q => by_cases hq : q = p <;> simp [setTraining, State.port_setPort, hq]

/-- What a fault can do to a link end: grants of the general queue consume a port's WRITEs (R93, R124). -/
theorem linkEnd_recordFault (k : FaultKind) (src : FaultSource) (w : Option WindowIdx) (t : Option (BitVec 6))
    (a : Option HostAddr) (c : Option FaultCount) (l : Link) (s : State) :
    ∃ ca cp, (recordFault k src w t a c s).linkEnd l = { s.linkEnd l with consumedA := ca, creditPending := cp } := by
  cases l with
  | trunk => exact ⟨_, _, recordFault_trunk ..⟩
  | branch p =>
    obtain ⟨_, _, _, _, _, _, ca, cp, h⟩ := (recordFault_port k src w t a c s p).rest
    exact ⟨ca, cp, congrArg PortBlock.link h⟩

end

/-- Settles O16: the link end in TRAINING by whether its transmitter is free, and all else as the record left it. -/
theorem crcErrorResynchronises : Obligations.CrcErrorResynchronises := by
  unfold Obligations.CrcErrorResynchronises
  intro l s e counted
  refine ⟨fun deaf => congrArg _ (crcFail_deaf deaf), fun phase => ?_, fun live => ?_⟩
  · show Host.Outcome.next (crcFail l s) = _
    rcases phase with phase | phase | phase <;> simp only [crcFail, phase] <;> rfl
  · obtain ⟨ca, cp, ended⟩ := linkEnd_recordFault .crcError (linkSource l) none none none none l counted
    rw [show counted.linkEnd l = { e with crcErrors := e.crcErrors + 1 } from State.linkEnd_setLink ..] at ended
    have run : exec (.crcError l) s =
        .next (startTraining l (recordFault .crcError (linkSource l) none none none none counted)) := by
      show Host.Outcome.next (crcFail l s) = _
      simp only [crcFail, live]
      rfl
    have queue (p : PortIdx) : (counted.port p).queue = (s.port p).queue :=
      ((unmoved_modLink l (fun e => { e with crcErrors := e.crcErrors + 1 }) s).ports p).queue
    have time : (recordFault .crcError (linkSource l) none none none none counted).time = s.time := by simp [counted]
    refine ⟨_, run, linkTraining_startTraining l _, ?_, ?_⟩
    · by_cases free : e.transmitting = none
      · rw [startTraining_of_free (by rw [ended]; exact free)]
        simp only [State.linkEnd_setLink, ended, LinkEnd.firstSync, time, free]
        cases l <;> simp [setTraining]
      · rw [startTraining_of_busy (by rw [ended]; exact free)]
        simp only [State.linkEnd_setLink, ended, LinkEnd.heldSync, free]
        cases l <;> simp [setTraining]
    · refine ⟨?_, ?_, ?_, ?_, ?_, ?_, ?_, ?_, fun p => ?_, ?_, ?_⟩
      case refine_9 => rw [queue_startTraining, (recordFault_port ..).queue, queue]
      all_goals
        obtain ⟨x, training⟩ := startTraining_frame l (recordFault .crcError (linkSource l) none none none none counted)
        rw [training]
        cases l <;> simp [setTraining, counted]

/-! ### Frames of link control -/

/-- A SYNC with capacities in range passes its checks (R98). -/
theorem validSync_trunk {a : Byte} (ha : a.toNat ≤ 64) (b : Byte) : validSync .trunk 5 a b = true := by
  simp [validSync, ha]

theorem validSync_branch {a b : Byte} (ha : a.toNat ≤ 32) (hb : b.toNat ≤ 32) (p : PortIdx) :
    validSync (.branch p) 5 a b = true := by
  simp [validSync, ha, hb]

/-- A port in UP that receives hands its frames on (R97). -/
theorem rxPhase_of_up {s : State} {p : PortIdx} (hup : (s.port p).state = .up) (h : s.rxPhase (.branch p) ≠ .deaf) :
    s.rxPhase (.branch p) = .live := by
  unfold State.rxPhase at h ⊢
  split at h
  · rename_i powered
    simp only [powered, if_true, hup]
  · exact absurd rfl h

/-- What a valid SYNC does to the trunk in TRAINING, once counted (R89). -/
theorem syncToUp_trunk (a b : Byte) (s : State) : syncToUp .trunk a b (s.frameIn .trunk) = settle { s with
    trunkState := .up, trunk := { s.trunk.countIn.adopt a b with
      syncAckDue := true, syncsSent := 0, resend := none, syncDue := false } } := by
  simp [syncToUp, afterUp, setUp, State.frameIn, LinkEnd.countIn, LinkEnd.adopt, LinkEnd.trained]

/-- What a valid SYNC does to a port that does not stay in UP, once counted (R89, R118 to R120). -/
theorem syncToUp_branch (p : PortIdx) (a b : Byte) (s : State) : syncToUp (.branch p) a b (s.frameIn (.branch p)) =
    refreshIdle p (s.setPort p { s.port p with
      state := .up, answer := none, wake := none, dozeReqDue := false, wakeDue := false
      link := { (s.port p).link.countIn.adopt a b with
        syncAckDue := true, syncsSent := 0, resend := none, syncDue := false } }) := by
  simp [syncToUp, afterUp, setUp, State.frameIn, LinkEnd.countIn, LinkEnd.adopt, LinkEnd.trained]

/-- Settles O17: the SYNC passes in every phase, and the state of the link decides whether it enters UP. -/
theorem syncTrainsTheLink : Obligations.SyncTrainsTheLink := by
  unfold Obligations.SyncTrainsTheLink
  intro a b s adopt train
  have framed : sizeFramed 5 = true := rfl
  refine ⟨fun ha => ⟨fun phase => ?_, fun phase => ?_⟩, fun p => ?_⟩
  · show Host.Outcome.next (receiveSync .trunk 5 a b s) = _
    simp only [receiveSync, receive_training framed phase, validSync_trunk ha b, if_true, syncToUp_trunk]
    rfl
  · show Host.Outcome.next (receiveSync .trunk 5 a b s) = _
    simp only [receiveSync, receive_live framed phase, validSync_trunk ha b, if_true, syncWhenLive]
    rfl
  intro x ha hb hears
  refine ⟨fun hx => ?_, fun hx => ?_⟩ <;> show Host.Outcome.next (receiveSync (.branch p) 5 a b s) = _
  · have trained : receiveSync (.branch p) 5 a b s = syncToUp (.branch p) a b (s.frameIn (.branch p)) := by
      have notUp : ((s.frameIn (.branch p)).port p).state ≠ .up := by rw [State.frameIn, State.port_setLink_state]; exact hx
      cases phase : s.rxPhase (.branch p) with
      | deaf => exact absurd phase hears
      | training => simp only [receiveSync, receive_training framed phase, validSync_branch ha hb, if_true]
      | live => simp only [receiveSync, receive_live framed phase, validSync_branch ha hb, if_true, syncWhenLive, notUp, if_false]
      | doze => simp only [receiveSync, receive_doze framed phase, validSync_branch ha hb, if_true]
      | waking => simp only [receiveSync, receive_waking framed phase, validSync_branch ha hb, if_true]
    rw [trained, syncToUp_branch]
    rfl
  · have up : ((s.frameIn (.branch p)).port p).state = .up := by rw [State.frameIn, State.port_setLink_state]; exact hx
    simp only [receiveSync, receive_live framed (rxPhase_of_up hx hears), validSync_branch ha hb, if_true, syncWhenLive, up]
    simp [State.frameIn, LinkEnd.adopt, adopt, x]

theorem decide_ne_zero (x : Byte) : decide (x ≠ 0) = (x != 0) := by
  rw [Bool.eq_iff_iff]
  simp

/-- Settles O18: a training ends in UP as with a SYNC, and a live link has only counted the frame. -/
theorem syncAckCompletesTheTraining : Obligations.SyncAckCompletesTheTraining := by
  unfold Obligations.SyncAckCompletesTheTraining
  intro a b s train
  have framed : sizeFramed 5 = true := rfl
  refine ⟨fun ha phase => ?_, fun p => ?_, fun l phase meets => ?_⟩
  · show Host.Outcome.next (receiveSyncAck .trunk 5 a b s) = _
    simp only [receiveSyncAck, receive_training framed phase, validSync_trunk ha b, if_true, syncAckToUp, afterUp,
      decide_ne_zero]
    rfl
  · intro x ha hb phase
    show Host.Outcome.next (receiveSyncAck (.branch p) 5 a b s) = _
    simp only [receiveSyncAck, receive_training framed phase, validSync_branch ha hb, if_true, syncAckToUp, afterUp,
      decide_ne_zero]
    simp [setUp, State.frameIn, LinkEnd.adopt, LinkEnd.trained, train, x]
  · show Host.Outcome.next (receiveSyncAck l 5 a b s) = _
    simp only [receiveSyncAck, receive_live framed phase, validSyncAck_iff.mpr meets, if_true, id]

/-- Settles O19: the CREDIT passes the comparison of R94, and its counts are reported. -/
theorem creditSetsTheReportedConsumption : Obligations.CreditSetsTheReportedConsumption := by
  unfold Obligations.CreditSetsTheReportedConsumption
  intro a b s
  have framed : sizeFramed 5 = true := rfl
  refine ⟨?_, fun p => ?_⟩
  · intro e phase fits
    show Host.Outcome.next (receiveCredit .trunk 5 a b s) = _
    have meets : s.frameMeets (.creditReceived .trunk 5 a b) := ⟨rfl, fits⟩
    simp only [receiveCredit, receive_live framed phase, validCredit_iff.mpr meets, if_true]
    rfl
  · intro x phase fitsA fitsB
    show Host.Outcome.next (receiveCredit (.branch p) 5 a b s) = _
    have meets : s.frameMeets (.creditReceived (.branch p) 5 a b) := ⟨rfl, fitsA, fitsB⟩
    simp only [receiveCredit, receive_live framed phase, validCredit_iff.mpr meets, if_true]
    simp [State.frameIn, LinkEnd.report, x]

/-! ### A module's WRITE -/

section
variable {p : PortIdx} {n : Byte} {a : ModuleAddr} {data : List Byte} {s : State}

/-- A consumption of a live port's WRITE makes a CREDIT due (R93). -/
theorem consume_live (hl : s.linkLive (.branch p) = true) : s.consume (.branch p) .a = s.setPort p { s.port p with
    link := { (s.port p).link with consumedA := (s.port p).link.consumedA + 1, creditPending := true } } := by
  simp [State.consume, LinkEnd.consume, hl]

/-- A module WRITE of the correct form in UP or DOZE_WAIT is counted and goes through the steps of R123. -/
theorem exec_moduleWrite_live (hl : s.rxPhase (.branch p) = .live) (h1 : 1 ≤ n.toNat) (h2 : n.toNat ≤ 64)
    (hd : data.length = n.toNat) : exec (.moduleWriteArrival p (8 + n.toNat) n a data) s =
      .next (acceptUpWrite p n.toNat a data (s.frameIn (.branch p))) := by
  have meets : s.frameMeets (.moduleWriteArrival p (8 + n.toNat) n a data) := ⟨h1, h2, rfl, hd⟩
  show Host.Outcome.next (receive (.branch p) _ _ _ _ _ s) = _
  rw [receive_live (sizeFramed_of_le (by omega) (by omega)) hl, if_pos (validWrite_iff.mpr meets)]

/-- A module WRITE that is refused, once counted: it is consumed, and recorded with its address and length (R93, R123). -/
theorem refuseUpWrite_frameIn (hl : s.linkLive (.branch p) = true) (k : FaultKind) :
    refuseUpWrite k p n.toNat a (s.frameIn (.branch p)) = recordFault k (.branch p) none none (some (a.setWidth 40))
      (some (.one (n.setWidth 16))) (s.setPort p { s.port p with link := { (s.port p).link with
        framesIn := (s.port p).link.framesIn + 1
        consumedA := (s.port p).link.consumedA + 1, creditPending := true } }) := by
  have live : (s.frameIn (.branch p)).linkLive (.branch p) = true := (linkLive_setLink ..).trans hl
  rw [refuseUpWrite, consume_live live]
  simp [State.frameIn, moduleAddress]

/-- A module WRITE that finds no slot, once counted: discarded and consumed, with its record (R93, R96). -/
theorem creditOverrun_frameIn (hl : s.linkLive (.branch p) = true) :
    creditOverrun (.branch p) .a none (moduleAddress a) (s.frameIn (.branch p)) =
      recordFault .creditOverrun (.branch p) none none (some (a.setWidth 40)) none
        (s.setPort p { s.port p with link := { (s.port p).link with
          framesIn := (s.port p).link.framesIn + 1, framesDiscarded := (s.port p).link.framesDiscarded + 1
          consumedA := (s.port p).link.consumedA + 1, creditPending := true } }) := by
  rw [creditOverrun, discardFrame_frameIn, consume_live ((linkLive_setLink ..).trans hl)]
  simp [moduleAddress, linkSource]

/-- A port whose buffer takes a WRITE stops being idle (R113). -/
theorem bufferWrite_frameIn (w : UpWrite) : bufferWrite p w (s.frameIn (.branch p)) = settle (s.setPort p { s.port p with
    link := { (s.port p).link with framesIn := (s.port p).link.framesIn + 1 }
    buffer := (s.port p).buffer ++ [w]
    idle := if (s.port p).state = .up then none else (s.port p).idle }) := by
  rw [bufferWrite, refreshIdle_of_busy (by simp [State.portIdle])]
  by_cases hup : (s.port p).state = .up <;> simp [State.frameIn, hup]

end

/-- Settles O21: the first condition of R96 and R123 that is met decides. -/
theorem moduleWriteIsBufferedOrDiscarded : Obligations.ModuleWriteIsBufferedOrDiscarded := by
  unfold Obligations.ModuleWriteIsBufferedOrDiscarded
  intro p n a data s b e consumed go refuse hl h1 h2 hd
  have run : go = .next (acceptUpWrite p n.toNat a data (s.frameIn (.branch p))) := exec_moduleWrite_live hl h1 h2 hd
  have live := (linkLive_of_rxPhase_live hl).1
  have port : (s.frameIn (.branch p)).port p = { b with link := e } := by simp [State.frameIn, b, e]
  rw [run]
  simp only [acceptUpWrite, State.freeA, Config.bufferSlots, port, PortBlock.hostAddress,
    refuseUpWrite_frameIn live, creditOverrun_frameIn live, bufferWrite_frameIn]
  refine ⟨fun full => ?_, fun room off => ?_, fun room on beyond => ?_, fun room on inside => ?_⟩
  · rw [if_pos (Nat.sub_eq_zero_of_le full)]
  all_goals rw [if_neg (Nat.sub_ne_zero_of_lt room)]
  · simp only [off, Bool.not_false, if_true]; rfl
  · simp only [on, Bool.not_true, Bool.false_eq_true, if_false, not_le.mpr beyond]; rfl
  · rw [if_neg (by simp [on]), if_pos inside]

end Sys2Proof.Machine
end

section
/-! The transmissions of link control and of the doze cycle, the release of POR_N, the failures of a branch link, and the state
after reset. -/

namespace Sys2Proof.Machine

-- The theorems are checked one after the other, which bounds the memory that the check takes.
set_option Elab.async false

/-! ### Transmissions -/

theorem txFree_iff {s : State} {l : Link} : s.txFree l = true ↔ (s.linkEnd l).transmitting = none := by
  rw [State.txFree, Option.isNone_iff_eq_none]

section
variable {ready : State → Bool} {send : State → State} {s : State}

/-- A frame that can be taken is transmitted while POR_N is high (R95, R184). -/
theorem sent_of_ready (hpor : s.porN = true) (h : ready s = true) :
    whenPowered (fun s => if ready s then send s else s) s = send s := by
  rw [whenPowered_of_high hpor, if_pos h]

/-- A frame that cannot be taken leaves the state (log 3). -/
theorem kept_of_waiting (h : ready s = false) : whenPowered (fun s => if ready s then send s else s) s = s := by
  simp only [whenPowered, h, Bool.false_eq_true, if_false, ite_self]

end

/-- Settles O9: each frame is ready, and its transmission is one write of the link end. -/
theorem linkControlFramesAreTransmitted : Obligations.LinkControlFramesAreTransmitted := by
  unfold Obligations.LinkControlFramesAreTransmitted
  intro l s e a b hpor idle
  have free : s.txFree l = true := txFree_iff.mpr idle
  refine ⟨fun training due => ?_, fun live due => ?_, fun live due noAck => ?_, fun due => ?_⟩
  · have ready : syncReady s l = true := by
      simp only [syncReady, training, free, show (s.linkEnd l).syncDue = true from due, Bool.and_self]
    exact congrArg Host.Outcome.next (sent_of_ready (ready := (syncReady · l)) (send := sendSync l) hpor ready)
  · have ready : syncAckReady s l = true := by
      simp only [syncAckReady, live, free, show (s.linkEnd l).syncAckDue = true from due, Bool.and_self]
    exact congrArg Host.Outcome.next (sent_of_ready (ready := (syncAckReady · l)) (send := sendSyncAck l) hpor ready)
  · have ready : creditReady s l = true := by
      simp only [creditReady, live, free, show (s.linkEnd l).creditPending = true from due,
        show (s.linkEnd l).syncAckDue = false from noAck, Bool.and_self, Bool.not_false]
    exact congrArg Host.Outcome.next (sent_of_ready (ready := (creditReady · l)) (send := sendCredit l) hpor ready)
  · have waits : creditReady s l = false := by
      simp only [creditReady, show (s.linkEnd l).syncAckDue = true from due, Bool.not_true, Bool.and_false, Bool.false_and]
    exact congrArg Host.Outcome.next (kept_of_waiting (ready := (creditReady · l)) (send := sendCredit l) waits)

/-- Link control goes first on a port in UP or DOZE_WAIT alone (R95, log 23). -/
theorem branchReady_eq {s : State} {p : PortIdx} (h : (s.port p).link.transmitting = none) :
    branchReady s p = !(((s.port p).state == .up || (s.port p).state == .dozeWait) &&
      ((s.port p).link.syncAckDue || (s.port p).link.creditPending)) := by
  have free : s.txFree (.branch p) = true := txFree_iff.mpr h
  rw [branchReady, free, Bool.true_and]
  rfl

/-- Settles O10: whether the frame is ready comes down to `branchReady`. -/
theorem dozeReqAndWakeAreTransmitted : Obligations.DozeReqAndWakeAreTransmitted := by
  unfold Obligations.DozeReqAndWakeAreTransmitted
  intro p s b first req wake hpor idle
  have ahead : ¬first → ((s.port p).link.syncAckDue || (s.port p).link.creditPending) = true := by
    intro h
    by_contra none
    exact h (by simpa [first, b] using none)
  refine ⟨fun state due go => ?_, fun state _ stop => ?_, fun state due => ?_, fun state _ stop => ?_⟩
  · have ready : dozeReqReady s p = true := by
      have state' : (s.port p).state = .dozeWait := state
      have due' : (s.port p).dozeReqDue = true := due
      obtain ⟨noAck, noCredit⟩ : (s.port p).link.syncAckDue = false ∧ (s.port p).link.creditPending = false := go
      simp [dozeReqReady, state', due', branchReady_eq idle, noAck, noCredit]
    exact congrArg Host.Outcome.next (sent_of_ready (ready := (dozeReqReady · p)) (send := sendDozeReq p) hpor ready)
  · have waits : dozeReqReady s p = false := by
      have state' : (s.port p).state = .dozeWait := state
      simp [dozeReqReady, branchReady_eq idle, state', ahead stop]
    exact congrArg Host.Outcome.next (kept_of_waiting (ready := (dozeReqReady · p)) (send := sendDozeReq p) waits)
  · have ready : wakeReady s p = true := by
      have due' : (s.port p).wakeDue = true := due
      rcases state with state | ⟨state, noAck, noCredit⟩
      · have state' : (s.port p).state = .waking := state
        simp [wakeReady, state', due', branchReady_eq idle]
      · have state' : (s.port p).state = .up := state
        have noAck' : (s.port p).link.syncAckDue = false := noAck
        have noCredit' : (s.port p).link.creditPending = false := noCredit
        simp [wakeReady, state', due', branchReady_eq idle, noAck', noCredit']
    exact congrArg Host.Outcome.next (sent_of_ready (ready := (wakeReady · p)) (send := sendWake p) hpor ready)
  · have waits : wakeReady s p = false := by
      have state' : (s.port p).state = .up := state
      simp [wakeReady, branchReady_eq idle, state', ahead stop]
    exact congrArg Host.Outcome.next (kept_of_waiting (ready := (wakeReady · p)) (send := sendWake p) waits)

/-! ### The release of POR_N -/

/-- The strap ID in whole numbers, ID1 the more significant bit (R168). -/
theorem strapOf_eq (id1 id0 : Bool) : strapOf id1 id0 = BitVec.ofNat 2 (2 * id1.toNat + id0.toNat) := by
  cases id1 <;> cases id0 <;> rfl

theorem strapDefault_strapOf (id1 id0 : Bool) : Config.strapDefault (strapOf id1 id0) =
    BitVec.ofNat 40 (0xFFFFFC0000 + (2 * id1.toNat + id0.toNat) * 0x10000) := by
  cases id1 <;> cases id0 <;> rfl

/-- The power-on values with the trunk's first SYNC sent (R87, R185). -/
theorem powerUp_eq (strap : BitVec 2) (s : State) : powerUp strap s = { State.reset with
    strapId := strap, apertureBase := Config.strapDefault strap, pending := s.pending } := by
  rw [powerUp, startTraining_trunk rfl]
  rfl

/-- A port in OFF drives no symbols (R105, R190). -/
theorem drives_of_off {s : State} {p : PortIdx} (h : (s.port p).state = .off) : s.drives (.branch p) = .undriven := by
  simp [State.drives, h]

/-- Settles O4: the blank state with the strap ID, and the trunk's first SYNC on it. -/
theorem porReleaseGivesPowerOnValues : Obligations.PorReleaseGivesPowerOnValues := by
  unfold Obligations.PorReleaseGivesPowerOnValues
  intro id1 id0 s strap
  have run : exec (.porRelease id1 id0) s = .next { State.reset with
      strapId := BitVec.ofNat 2 strap, apertureBase := BitVec.ofNat 40 (0xFFFFFC0000 + strap * 0x10000)
      pending := s.pending } := by
    show Host.Outcome.next (powerUp (strapOf id1 id0) s) = _
    rw [powerUp_eq, strapDefault_strapOf, strapOf_eq]
  refine ⟨run, fun t ht => ?_⟩
  obtain rfl := Host.Outcome.next.inj (run.symm.trans ht)
  refine ⟨rfl, fun p => drives_of_off ?_⟩
  show ((State.blank true 0 []).port p).state = .off
  rw [port_blank]
  rfl

/-! ### Failures of a branch link -/

/-- Settles O30: each failure passes its test and is `portFail`, and a closed port loses its report alone. -/
theorem branchFailuresEnterDown : Obligations.BranchFailuresEnterDown := by
  unfold Obligations.BranchFailuresEnterDown
  intro p s b hpor down gone
  have failed (k : FaultKind) (u : State) : Host.Outcome.next (settle (portFail k p u)) = down k u := by
    simp only [portFail, State.modLink_eq, State.setLink_branch, State.linkEnd_branch, Config.retryInterval, down,
      (portDown_branchSide ..).time]
  refine ⟨fun present notOff notDown => ?_, fun present closed => ?_, fun training due many => ?_, fun waking due => ?_⟩
  · have on : (s.linkEnd (.branch p)).signal = true := present
    have accepts : (s.port p).state.accepts = true := by
      rw [← Bool.not_eq_false, accepts_eq_false_iff]
      exact not_or.mpr ⟨notOff, notDown⟩
    show Host.Outcome.next (whenPowered (loseSignal (.branch p)) s) = _
    rw [whenPowered_of_high hpor, loseSignal, if_pos on]
    simp only [accepts, if_true]
    exact failed .signalLost gone
  · have on : (s.linkEnd (.branch p)).signal = true := present
    have refuses : (s.port p).state.accepts = false := accepts_eq_false_iff.mpr closed
    show Host.Outcome.next (whenPowered (loseSignal (.branch p)) s) = _
    rw [whenPowered_of_high hpor, loseSignal, if_pos on]
    simp only [refuses, Bool.false_eq_true, if_false]
    rfl
  · have inTraining : s.linkTraining (.branch p) = true := beq_iff_eq.mpr training
    have spent : ¬(s.port p).link.syncsSent < Config.maxSyncs := not_lt.mpr many
    show Host.Outcome.next (whenPowered (resendReached (.branch p)) s) = _
    rw [whenPowered_of_high hpor]
    simp only [resendReached, inTraining, State.linkEnd_branch, show s.reached (s.port p).link.resend = true from due,
      Bool.and_self, if_true, spent, if_false]
    exact failed .trainingFail s
  · show Host.Outcome.next (whenPowered (wakeReached p) s) = _
    rw [whenPowered_of_high hpor, wakeReached, if_pos ⟨waking, due⟩]
    exact failed .wakeFail s

/-! ### The state after reset -/

/-- Settles O58: the vectors of `State.reset` are those of the blank state. -/
theorem resetMeetsTheInvariants : Obligations.ResetMeetsTheInvariants := by
  unfold Obligations.ResetMeetsTheInvariants
  have window : ∀ w, State.reset.window w = .zero := window_blank true 0 []
  have list : ∀ w, State.reset.holdList w = [] := holdList_blank true 0 []
  have entry : ∀ i, State.reset.entry i = ⟨0, none⟩ := entry_blank true 0 []
  have sent : ∀ p, State.reset.sentOf p = [] := sentOf_blank true 0 []
  have port : ∀ p, State.reset.port p = .off true := port_blank true 0 []
  have line : ∀ i, State.reset.line i = .zero := line_blank true 0 []
  have noDrain (w : WindowIdx) : State.reset.windowState w ≠ .drain := fun drain =>
    (windowState_eq_drain_iff.mp drain).2.2 (list w)
  refine ⟨fun w on => ?_, fun w _ => list w, ?_, Nat.zero_le _, ?_, fun i j t ti => ?_, fun i => ?_, fun p _ => ?_, fun p => ?_,
    fun l => ?_, fun p up => ?_, admitted_of_idle rfl (fun p => ?_) fun i => ?_, ⟨rfl, rfl⟩,
    fun w h drain => absurd drain (noDrain w), fun w h drain => absurd drain (noDrain w)⟩
  · rw [window] at on; cases on
  · obtain ⟨lifetime, headWait, wakeLimit⟩ := defaults_in_range
    exact ⟨strapDefault_aligned 0, lifetime.1, lifetime.2, headWait, fun p => by rw [port]; exact ⟨Nat.zero_le _, wakeLimit⟩⟩
  · refine ⟨(heldTotal_eq_zero list).le.trans (Nat.zero_le _), Nat.zero_le _, Nat.zero_le _, Nat.zero_le _, fun p => ?_⟩
    rw [port]
    exact ⟨Nat.zero_le _, Nat.zero_le _⟩
  · rw [State.ticketOf, entry] at ti; cases ti
  · rw [entry]
    refine ⟨rfl, fun w => ?_, fun p => ?_, fun p => ?_, rfl⟩
    · rw [list]; rfl
    · rw [port]; rfl
    · rw [sent]; rfl
  · rw [port]
    exact ⟨rfl, rfl, fun i => by rw [entry]; rfl⟩
  · rw [port]
    simp [PortBlock.off]
  · cases l with
    | trunk => decide
    | branch p =>
      simp only [State.linkEnd_branch, State.linkTraining, State.linkDown, State.linkLive, port]
      decide
  · rw [port] at up; cases up
  · rw [port]; rfl
  · rw [line]; rfl

end Sys2Proof.Machine
end

section
/-! The clearing of counters at a free decoder: which counters a WRITE of whole numbers covers (R107, R163, R179). -/

namespace Sys2Proof.Machine

-- The theorems are checked one after the other, which bounds the memory that the check takes.
set_option Elab.async false

/-! ### The counters that a WRITE covers -/

/-- The data of COUNTER_CLEAR: the value once for each counter. -/
theorem length_counterData (n v : Nat) : (List.replicate n (beBytes 4 v)).flatten.length = 4 * n := by
  simp [List.length_flatten, Nat.mul_comm]

section
variable {first n : Nat} {data : List Byte} (hlen : data.length = 4 * n) (base k : Nat)
include hlen

/-- Counter number `k` is covered exactly if it is one of those that the WRITE counts. -/
theorem fieldOf_counter :
    (fieldOf (base + 4 * first) data (base + 4 * k) 4).isSome = decide (first ≤ k ∧ k < first + n) := by
  rw [Bool.eq_iff_iff, decide_eq_true_iff, fieldOf, hlen]
  split <;> simp only [Option.isSome_some, Option.isSome_none, true_iff, Bool.false_eq_true, false_iff] <;> omega

theorem withField_counter (f : State → State) (s : State) :
    withField (fieldOf (base + 4 * first) data (base + 4 * k) 4) (fun _ => f) s =
      if first ≤ k ∧ k < first + n then f s else s := by
  have covered := fieldOf_counter (first := first) hlen base k
  cases h : fieldOf (base + 4 * first) data (base + 4 * k) 4 with
  | none => rw [if_neg (of_decide_eq_false (by rw [← covered, h]; rfl))]; rfl
  | some x => rw [if_pos (of_decide_eq_true (by rw [← covered, h]; rfl))]; rfl

end

/-- Counter number `k` of those from `first` on becomes 0 if it is one of the `n` (R179). -/
def hitCounter (first n k : Nat) (x : Counter) : Counter := if first ≤ k ∧ k < first + n then 0 else x

/-- The link end with its covered counters 0. -/
def LinkEnd.cleared (first n : Nat) (e : LinkEnd) : LinkEnd := { e with
  framesOut := hitCounter first n 0 e.framesOut, framesIn := hitCounter first n 1 e.framesIn
  crcErrors := hitCounter first n 2 e.crcErrors, framesDiscarded := hitCounter first n 3 e.framesDiscarded }

theorem State.setLink_linkEnd (s : State) (l : Link) : s.setLink l (s.linkEnd l) = s := by
  cases l with
  | trunk => rfl
  | branch p => exact s.setPort_port p

section
variable {first n : Nat} {data : List Byte} (hlen : data.length = 4 * n)
include hlen

/-- A counter that a field of the link end holds is written as it is covered. -/
theorem clearCounter_eq (base k : Nat) {f : LinkEnd → LinkEnd} {g : LinkEnd → LinkEnd}
    (hg : ∀ e, g e = if first ≤ k ∧ k < first + n then f e else e) (l : Link) (s : State) :
    clearCounter (base + 4 * first) data (base + 4 * k) f l s = s.setLink l (g (s.linkEnd l)) := by
  rw [clearCounter, withField_counter hlen, hg, State.modLink_eq]
  split
  · rfl
  · exact (s.setLink_linkEnd l).symm

theorem clearCounters_eq (base : Nat) (l : Link) (s : State) :
    clearCounters (base + 4 * first) data base l s = s.setLink l ((s.linkEnd l).cleared first n) := by
  have out := clearCounter_eq (first := first) hlen base 0 (f := fun e => { e with framesOut := 0 })
    (g := fun e => { e with framesOut := hitCounter first n 0 e.framesOut }) fun e => by unfold hitCounter; split <;> rfl
  have into := clearCounter_eq (first := first) hlen base 1 (f := fun e => { e with framesIn := 0 })
    (g := fun e => { e with framesIn := hitCounter first n 1 e.framesIn }) fun e => by unfold hitCounter; split <;> rfl
  have crc := clearCounter_eq (first := first) hlen base 2 (f := fun e => { e with crcErrors := 0 })
    (g := fun e => { e with crcErrors := hitCounter first n 2 e.crcErrors }) fun e => by unfold hitCounter; split <;> rfl
  have lost := clearCounter_eq (first := first) hlen base 3 (f := fun e => { e with framesDiscarded := 0 })
    (g := fun e => { e with framesDiscarded := hitCounter first n 3 e.framesDiscarded }) fun e => by
      unfold hitCounter; split <;> rfl
  simp only [Nat.mul_zero, Nat.add_zero, Nat.reduceMul] at out into crc lost
  simp only [clearCounters, out, into, crc, lost, State.linkEnd_setLink, State.setLink_setLink]
  rfl

/-- The counters of a port record: the four of its link, then the stale one (R107, R189). -/
theorem writePort_counters (p : PortIdx) (s : State) (h5 : first + n ≤ 5) :
    writePort p (0x1C + 4 * first) data s = s.setPort p { s.port p with
      link := (s.port p).link.cleared first n, stale := hitCounter first n 4 (s.port p).stale } := by
  have before : ∀ field size, field < 0x1C → fieldOf (0x1C + 4 * first) data field size = none :=
    fun field size h => fieldOf_before (by omega)
  have stale := fun u : State => withField_counter (first := first) hlen 0x1C 4
    (fun u => u.modPort p fun b => { b with stale := 0 }) u
  simp only [Nat.reduceMul, Nat.reduceAdd, State.modPort_eq] at stale
  simp only [writePort, before 0x00 1 (by decide), before 0x01 1 (by decide), before 0x02 2 (by decide),
    before 0x04 2 (by decide), before 0x08 1 (by decide), before 0x10 8 (by decide), clearCounters_eq hlen, State.modPort_eq]
  simp only [withField]
  refine (stale _).trans ?_
  simp only [hitCounter, State.setLink_branch, State.linkEnd_branch]
  split <;> simp

end

/-! ### The counters at a free decoder -/

/-- Counters that end in their record lie in it (R171). -/
theorem readForm_counters {r : RecordId} {base first n : Nat} (aligned : (r.offset + base) % 4 = 0) (h1 : 1 ≤ n)
    (inside : base + 4 * first + 4 * n ≤ r.size) :
    readForm (r.offset + base + 4 * first) (4 * n) = some (r, base + 4 * first) :=
  (readForm_eq_some_iff (by omega)).mpr ⟨by omega, by omega, by omega, by omega, by omega⟩

/-- A WRITE of a port's counters covers none of its fields that have a range (R172). -/
theorem validFields_portCounters (p : PortIdx) (first : Nat) (data : List Byte) :
    validFields (.port p) (0x1C + 4 * first) data = true := by
  have before : ∀ field size, field < 0x1C → fieldOf (0x1C + 4 * first) data field size = none :=
    fun field size h => fieldOf_before (by omega)
  simp only [validFields, before 0x00 1 (by decide), before 0x01 1 (by decide), before 0x02 2 (by decide),
    before 0x04 2 (by decide), before 0x08 1 (by decide), fieldIs, Bool.and_self]

section
variable {s : State} (h : s.hostReady) {first n : Nat} (h1 : 1 ≤ n) {data : List Byte} (hlen : data.length = 4 * n)
include h h1 hlen

theorem hostWrite_trunkCounters (within : first + n ≤ 4) : hostWrite (counterOffset .trunk + 4 * first) data s =
    { s.writeTaken with trunk := s.writeTaken.trunk.cleared first n } := by
  have form : writeForm (counterOffset .trunk + 4 * first) data.length = some (.trunk, 0x08 + 4 * first) := by
    have inside : readForm (counterOffset .trunk + 4 * first) (4 * n) = some (.trunk, 0x08 + 4 * first) :=
      readForm_counters (r := .trunk) (by decide) h1 (by simp only [RecordId.size]; omega)
    simp only [writeForm, hlen, inside, if_true]
  rw [hostWrite_applied h (by simp only [counterOffset, RecordId.offset]; omega) (by omega) (by omega) form rfl]
  simp only [applyRecord, clearCounters_eq hlen]
  exact serveClaims_afterTaking h rfl rfl rfl rfl rfl fun _ => rfl

theorem hostWrite_portCounters (p : PortIdx) (within : first + n ≤ 5) :
    hostWrite (counterOffset (.branch p) + 4 * first) data s = s.writeTaken.setPort p { s.port p with
      link := (s.port p).link.cleared first n, stale := hitCounter first n 4 (s.port p).stale } := by
  have form : writeForm (counterOffset (.branch p) + 4 * first) data.length = some (.port p, 0x1C + 4 * first) := by
    have inside : readForm (counterOffset (.branch p) + 4 * first) (4 * n) = some (.port p, 0x1C + 4 * first) :=
      readForm_counters (r := .port p) (by simp only [RecordId.offset]; omega) h1 (by simp only [RecordId.size]; omega)
    have whole : wholeField (0x1C + 4 * first) (4 * n) 0x10 8 = true := by
      simp only [wholeField, Bool.or_eq_true, decide_eq_true_eq]
      omega
    simp only [writeForm, hlen, inside, whole, if_true]
  have low : counterOffset (.branch p) + 4 * first < 0x10000 := by
    have := p.isLt
    simp only [counterOffset, RecordId.offset]
    omega
  rw [hostWrite_applied h low (by omega) (by omega) form (validFields_portCounters p first data)]
  simp only [applyRecord, writePort_counters hlen p _ within]
  exact serveClaims_setPort_writeTaken h rfl

end

/-- The dropped count written with any value at a free decoder (R163). -/
theorem hostWrite_droppedCount {s : State} (h : s.hostReady) (v : BitVec 32) :
    hostWrite 0x5024 (beBytes 4 v.toNat) s = { s.writeTaken with dropped := 0 } := by
  have noCommand : fieldOf 4 (beBytes 4 v.toNat) 0x08 4 = none := fieldOf_other (.inr (by decide))
  rw [hostWrite_applied h (r := .logControl) (at' := 4) (by decide) (by simp) (by simp) (by rw [length_beBytes]; decide)
    (by simp only [validFields, noCommand, fieldIs])]
  simp only [applyRecord, writeLogControl, fieldOf_whole 4 (show v.toNat < 256 ^ 4 from v.isLt), noCommand, withField]
  exact serveClaims_afterTaking h rfl rfl rfl rfl rfl fun _ => rfl

/-- Settles O50: each WRITE covers its counters alone, and no claim rests on them. -/
theorem counterWritesClear : Obligations.CounterWritesClear := by
  unfold Obligations.CounterWritesClear
  intro s first n v h h1 hit cleared
  have hlen := length_counterData n v.toNat
  exact ⟨fun within => congrArg Host.Outcome.next (hostWrite_trunkCounters h h1 hlen within),
    fun p within => congrArg Host.Outcome.next (hostWrite_portCounters h h1 hlen p within),
    congrArg Host.Outcome.next (hostWrite_droppedCount h v)⟩

end Sys2Proof.Machine
end

section
/-! The clock and the receivers before the queue: ticks, reports, and the detection of the signal over a run of inputs (R176,
R190). -/

namespace Sys2Proof.Machine

-- The theorems are checked one after the other, which bounds the memory that the check takes.
set_option Elab.async false

/-! ### One input at the receiver of each link -/

theorem mem_linkAll (l : Link) : l ∈ Link.all := by
  cases l with
  | trunk => exact List.mem_cons_self
  | branch p => exact List.mem_cons_of_mem _ (List.mem_map_of_mem (List.mem_finRange p))

theorem nodup_linkAll : Link.all.Nodup := by decide

/-- The receivers of some links, each replaced by a function of itself. -/
def Front.mapReceivers (g : Link → Receiver → Receiver) (ls : List Link) (f : Front) : Front :=
  ls.foldl (fun f l => f.setReceiver l (g l (f.receiver l))) f

section
variable (g : Link → Receiver → Receiver) (f : Front)

theorem Front.cycles_mapReceivers (ls : List Link) : (f.mapReceivers g ls).cycles = f.cycles := by
  induction ls generalizing f with
  | nil => rfl
  | cons l ls ih => exact (ih (f.setReceiver l (g l (f.receiver l)))).trans (f.cycles_setReceiver l _)

theorem Front.receiver_mapReceivers_of_notMem {l : Link} {ls : List Link} (h : l ∉ ls) :
    (f.mapReceivers g ls).receiver l = f.receiver l := by
  induction ls generalizing f with
  | nil => rfl
  | cons k ls ih =>
    obtain ⟨other, rest⟩ := not_or.mp (mt List.mem_cons.mpr h)
    exact (ih (f.setReceiver k (g k (f.receiver k))) rest).trans (Front.receiver_setReceiver_other other f _)

theorem Front.receiver_mapReceivers {l : Link} {ls : List Link} (h : l ∈ ls) (once : ls.Nodup) :
    (f.mapReceivers g ls).receiver l = g l (f.receiver l) := by
  induction ls generalizing f with
  | nil => exact absurd h List.not_mem_nil
  | cons k ls ih =>
    obtain ⟨new, rest⟩ := List.nodup_cons.mp once
    by_cases hk : l = k
    · subst hk
      exact (Front.receiver_mapReceivers_of_notMem g _ new).trans (f.receiver_setReceiver_same l _)
    · have tail : l ∈ ls := (List.mem_cons.mp h).resolve_left hk
      refine (ih (f.setReceiver k (g k (f.receiver k))) tail rest).trans ?_
      rw [Front.receiver_setReceiver_other hk]

end

/-- A cycle at some receivers: each cycles once, and their reports stand in the order of the links. -/
theorem foldl_cycleAt (ls : List Link) (once : ls.Nodup) (x : Front × List Instr) : ls.foldl Front.cycleAt x =
    (x.1.mapReceivers (fun l r => (r.cycle l).1) ls, x.2 ++ ls.flatMap fun l => ((x.1.receiver l).cycle l).2) := by
  induction ls generalizing x with
  | nil => simp [Front.mapReceivers]
  | cons k ls ih =>
    obtain ⟨new, rest⟩ := List.nodup_cons.mp once
    have same : (ls.flatMap fun l => ((((x.1.setReceiver k ((x.1.receiver k).cycle k).1)).receiver l).cycle l).2) =
        ls.flatMap fun l => ((x.1.receiver l).cycle l).2 :=
      List.flatMap_congr fun l hl => by rw [Front.receiver_setReceiver_other (ne_of_mem_of_not_mem hl new)]
    rw [List.foldl_cons, ih rest]
    simp only [Front.cycleAt, same, List.flatMap_cons, List.append_assoc]
    rfl

theorem Front.receiver_count (f : Front) (l : Link) : f.count.1.receiver l = f.receiver l := by
  unfold Front.count
  split <;> cases l <;> rfl

theorem Front.take_refclk (f : Front) : f.take .refclk = (f.count.1.mapReceivers (fun l r => (r.cycle l).1) Link.all,
    f.count.2 ++ Link.all.flatMap fun l => ((f.receiver l).cycle l).2) := by
  show Link.all.foldl Front.cycleAt f.count = _
  simp only [foldl_cycleAt _ nodup_linkAll, Front.receiver_count]

/-- A cycle of REFCLK at the receiver of a link. -/
theorem Front.receiver_refclk (f : Front) (l : Link) : (f.take .refclk).1.receiver l = ((f.receiver l).cycle l).1 := by
  rw [Front.take_refclk, Front.receiver_mapReceivers _ _ (mem_linkAll l) nodup_linkAll, Front.receiver_count]

theorem Front.cycles_refclk (f : Front) : (f.take .refclk).1.cycles = f.count.1.cycles := by
  rw [Front.take_refclk, Front.cycles_mapReceivers]

/-- REFCLK stops at the receiver of each link, and nothing is made of it. -/
theorem Front.receiver_refclkStop (f : Front) (l : Link) : (f.take .refclkStop).1.receiver l = (f.receiver l).stop :=
  Front.receiver_mapReceivers (fun _ r => r.stop) f (mem_linkAll l) nodup_linkAll

theorem Front.cycles_refclkStop (f : Front) : (f.take .refclkStop).1.cycles = f.cycles :=
  Front.cycles_mapReceivers (fun _ r => r.stop) f Link.all

/-- A symbol at the receiver of its link. -/
theorem Front.receiver_symbol (f : Front) (l : Link) (x : Symbol) :
    (f.take (.symbol l x)).1.receiver l = ((f.receiver l).take l x).1 := f.receiver_setReceiver_same l _

/-! ### Reports -/

/-- The link of a receiver's report, and whether it reports its signal present. -/
def reportOf : Instr → Option (Link × Bool)
  | .signalLost l => some (l, false)
  | .signalPresent l => some (l, true)
  | _ => none

theorem reportOf_eq_lost {c : Instr} {l : Link} : reportOf c = some (l, false) ↔ c = .signalLost l := by
  cases c <;> simp [reportOf]

theorem reportOf_eq_present {c : Instr} {l : Link} : reportOf c = some (l, true) ↔ c = .signalPresent l := by
  cases c <;> simp [reportOf]

/-- A frame is no report. -/
theorem reportOf_frameCommand (l : Link) (bytes : List Byte) : reportOf (frameCommand l bytes) = none := by
  have fromHost : ∀ size body, reportOf (hostFrame size body) = none := by
    intro size body
    unfold hostFrame
    dsimp only
    split_ifs <;> rfl
  have fromModule : ∀ p size body, reportOf (moduleFrame p size body) = none := by
    intro p size body
    unfold moduleFrame
    dsimp only
    split_ifs <;> rfl
  unfold frameCommand
  dsimp only
  split
  · cases l with
    | trunk => exact fromHost ..
    | branch p => exact fromModule ..
  · rfl

/-- What a symbol makes is a frame, or one whose CRC fails. -/
theorem mem_deframe {l : Link} {x : Symbol} {r : Receiver} {c : Instr} (h : c ∈ (r.deframe l x).2) :
    (∃ bytes, c = frameCommand l bytes) ∨ c = .crcError l := by
  unfold Receiver.deframe at h
  split at h <;> simp only [List.not_mem_nil, List.mem_singleton] at h
  case h_7 bytes _ => exact .inl ⟨bytes, h⟩
  all_goals exact .inr h

/-- A symbol makes no report. -/
theorem reportOf_symbol {l : Link} {x : Symbol} {r : Receiver} {c : Instr} (h : c ∈ (r.take l x).2) : reportOf c = none := by
  unfold Receiver.take at h
  dsimp only at h
  split at h
  · cases h
  · split at h
    · rcases mem_deframe h with ⟨bytes, rfl⟩ | rfl
      · exact reportOf_frameCommand l bytes
      · rfl
    · cases h

/-- A cycle reports where the report changes. -/
theorem mem_cycle {l : Link} {r : Receiver} {c : Instr} :
    c ∈ (r.cycle l).2 ↔ reportOf c = some (l, (r.cycle l).1.signal) ∧ r.signal = !(r.cycle l).1.signal := by
  rw [Receiver.cycle_report]
  cases r.signal <;> cases (r.cycle l).1.signal <;> simp [reportOf_eq_lost, reportOf_eq_present]

theorem mem_count {f : Front} {c : Instr} (h : c ∈ f.count.2) : c = .routerTimeTick := by
  unfold Front.count at h
  split at h
  · cases h
  · exact List.mem_singleton.mp h

theorem mem_refclk {f : Front} {c : Instr} :
    c ∈ (f.take .refclk).2 ↔ c ∈ f.count.2 ∨ ∃ l, c ∈ ((f.receiver l).cycle l).2 := by
  rw [Front.take_refclk, List.mem_append, List.mem_flatMap]
  exact or_congr_right ⟨fun ⟨l, _, h⟩ => ⟨l, h⟩, fun ⟨l, h⟩ => ⟨l, mem_linkAll l, h⟩⟩

/-- A cycle of REFCLK makes the report of a link where it changes what the receiver reports. -/
theorem report_refclk {f : Front} {l : Link} {c : Instr} {v : Bool} (hc : reportOf c = some (l, v)) :
    c ∈ (f.take .refclk).2 ↔ (f.receiver l).signal = !v ∧ ((f.take .refclk).1.receiver l).signal = v := by
  rw [mem_refclk, Front.receiver_refclk]
  constructor
  · rintro (tick | ⟨k, h⟩)
    · rw [mem_count tick] at hc
      cases hc
    · obtain ⟨made, changed⟩ := mem_cycle.mp h
      obtain ⟨rfl, rfl⟩ : l = k ∧ v = ((f.receiver k).cycle k).1.signal := by simpa using hc.symm.trans made
      exact ⟨changed, rfl⟩
  · rintro ⟨before, after⟩
    exact .inr ⟨l, mem_cycle.mpr ⟨by rw [after]; exact hc, by rw [after]; exact before⟩⟩

/-- A symbol leaves the reports. -/
theorem report_symbol {f : Front} {k l : Link} {x : Symbol} {c : Instr} {v : Bool} (hc : reportOf c = some (l, v)) :
    c ∉ (f.take (.symbol k x)).2 := by
  intro h
  rw [reportOf_symbol h] at hc
  cases hc

/-! ### Silence -/

/-- `n` cycles of silence have passed at a receiver since it was `r`: it reports its signal lost and has dropped the open
frame from the cycle on that makes 50, and no run of valid symbols is in the making (R190). -/
structure Silent (r : Receiver) (n : Nat) (t : Receiver) : Prop where
  quiet : t.quiet = min 50 n
  signal : t.signal = (r.signal && decide (n < 50))
  frame : t.frame = if n < 50 then r.frame else none
  unsteady : t.signal = true ∨ t.steady = none ∨ t.heard = false

theorem Silent.start {r : Receiver} (quiet : r.quiet = 0) (unsteady : r.signal = true ∨ r.steady = none ∨ r.heard = false) :
    Silent r 0 r := ⟨quiet, (Bool.and_true _).symm, rfl, unsteady⟩

/-- One more cycle of silence. -/
theorem Silent.cycle {r t : Receiver} {n : Nat} (h : Silent r n t) (l : Link) : Silent r (n + 1) (t.cycle l).1 := by
  obtain ⟨quiet, signal, frame, unsteady⟩ := h
  have grown : min detectCycles (t.quiet + 1) = min 50 (n + 1) := by
    rw [quiet, detectCycles]
    omega
  have steady : ¬((if t.heard then t.steady.map fun n => min detectCycles (n + 1) else none) = some detectCycles ∧
      t.signal = false) := by
    rintro ⟨some', absent⟩
    rcases unsteady with h | h | h <;> simp [h] at some' absent
  unfold Receiver.cycle
  dsimp only
  rw [grown]
  rw [detectCycles] at steady ⊢
  by_cases hn : n + 1 < 50
  · have short : ¬min 50 (n + 1) = 50 := by omega
    have before : n < 50 := by omega
    rw [if_neg short, if_neg steady]
    exact ⟨rfl, by simp [signal, hn, before], by simp [frame, hn, before], .inr (.inr rfl)⟩
  · have long : min 50 (n + 1) = 50 := by omega
    rw [if_pos long]
    exact ⟨rfl, by simp [hn], by simp [hn], .inr (.inr rfl)⟩

/-- The last of some cycles of REFCLK. -/
theorem Front.run_refclk_succ (n : Nat) (f : Front) : f.run (List.replicate (n + 1) .refclk) =
    (((f.run (List.replicate n .refclk)).1.take .refclk).1,
      (f.run (List.replicate n .refclk)).2 ++ ((f.run (List.replicate n .refclk)).1.take .refclk).2) := by
  rw [List.replicate_succ', Front.run_append, Front.run_cons, Front.run_nil, List.append_nil]

/-- Cycles of REFCLK alone are silence on a lane. -/
theorem silent_run {f : Front} {l : Link} (h : Silent (f.receiver l) 0 (f.receiver l)) (n : Nat) :
    Silent (f.receiver l) n ((f.run (List.replicate n .refclk)).1.receiver l) := by
  induction n with
  | zero => exact h
  | succ n ih =>
    rw [Front.run_refclk_succ, Front.receiver_refclk]
    exact ih.cycle l

/-- The signal of a lane without symbols is reported lost at the 50th cycle. -/
theorem lost_of_silence {f : Front} {l : Link} (h : Silent (f.receiver l) 0 (f.receiver l))
    (present : (f.receiver l).signal = true) (n : Nat) :
    .signalLost l ∈ (f.run (List.replicate n .refclk)).2 ↔ 50 ≤ n := by
  induction n with
  | zero => simp
  | succ n ih =>
    have before := (silent_run h n).signal
    have after := (silent_run h (n + 1)).signal
    rw [Front.run_refclk_succ] at after ⊢
    rw [List.mem_append, ih, report_refclk (v := false) rfl, before, after, present]
    simp only [Bool.true_and, decide_eq_false_iff_not, Bool.not_false, decide_eq_true_eq]
    omega

/-! ### Router time -/

theorem Front.count_tick {f : Front} (h : f.cycles < 25) :
    f.count.1.cycles = (f.cycles + 1) % 25 ∧ f.count.2 = List.replicate ((f.cycles + 1) / 25) .routerTimeTick := by
  unfold Front.count
  split
  · rename_i hc
    exact ⟨(Nat.mod_eq_of_lt hc).symm, by rw [Nat.div_eq_of_lt hc]; rfl⟩
  · have last : f.cycles + 1 = 25 := by omega
    rw [last]
    exact ⟨rfl, rfl⟩

/-- The cycles since the last tick, after some more. -/
theorem cycles_run {f : Front} (h : f.cycles < 25) (n : Nat) :
    (f.run (List.replicate n .refclk)).1.cycles = (f.cycles + n) % 25 := by
  induction n with
  | zero => exact (Nat.mod_eq_of_lt h).symm
  | succ n ih =>
    rw [Front.run_refclk_succ, Front.cycles_refclk, (Front.count_tick (by omega)).1, ih]
    omega

/-- A cycle of REFCLK makes a tick at each 25, and reports. -/
theorem ticks_refclk {f : Front} (h : f.cycles < 25) : (f.take .refclk).2.filter (fun c => c = .routerTimeTick) =
    List.replicate ((f.cycles + 1) / 25) .routerTimeTick := by
  have reports : (Link.all.flatMap fun l => ((f.receiver l).cycle l).2).filter (fun c => c = .routerTimeTick) = [] := by
    rw [List.filter_eq_nil_iff]
    intro c hc
    obtain ⟨l, _, made⟩ := List.mem_flatMap.mp hc
    have report := (mem_cycle.mp made).1
    rintro tick
    rw [of_decide_eq_true tick] at report
    cases report
  rw [Front.take_refclk, List.filter_append, reports, List.append_nil, (Front.count_tick h).2]
  simp

/-- Each 25 cycles of REFCLK make one tick (R176, R190). -/
theorem ticks_run {f : Front} (h : f.cycles < 25) (n : Nat) :
    (f.run (List.replicate n .refclk)).2.filter (fun c => c = .routerTimeTick) =
      List.replicate ((f.cycles + n) / 25) .routerTimeTick := by
  induction n with
  | zero => simp [Nat.div_eq_of_lt h]
  | succ n ih =>
    have here := cycles_run h n
    rw [Front.run_refclk_succ, List.filter_append, ih, ticks_refclk (by omega), here, List.replicate_append_replicate]
    congr 1
    omega

/-- Cycles of REFCLK make ticks and reports alone. -/
theorem mem_run_refclk {f : Front} {n : Nat} {c : Instr} (h : c ∈ (f.run (List.replicate n .refclk)).2) :
    c = .routerTimeTick ∨ ∃ l, c = .signalLost l ∨ c = .signalPresent l := by
  induction n with
  | zero => cases h
  | succ n ih =>
    rw [Front.run_refclk_succ] at h
    rcases List.mem_append.mp h with before | now
    · exact ih before
    · rcases mem_refclk.mp now with tick | ⟨l, report⟩
      · exact .inl (mem_count tick)
      · refine .inr ⟨l, ?_⟩
        have made := (mem_cycle.mp report).1
        cases hv : (((f.run (List.replicate n .refclk)).1.receiver l).cycle l).1.signal with
        | false => exact .inl (reportOf_eq_lost.mp (made.trans (by rw [hv])))
        | true => exact .inr (reportOf_eq_present.mp (made.trans (by rw [hv])))

/-! ### REFCLK stops and returns -/

section
variable {f : Front} (hc : f.cycles < 25) (h : ∀ l, Silent (f.receiver l) 0 (f.receiver l))
include hc h

/-- Less than 50 cycles of silence on every lane make ticks alone. -/
theorem ticks_of_silence {n : Nat} (hn : n < 50) :
    (f.run (List.replicate n .refclk)).2 = List.replicate ((f.cycles + n) / 25) .routerTimeTick := by
  rw [← ticks_run hc n, eq_comm, List.filter_eq_self]
  intro c made
  rcases mem_run_refclk made with tick | ⟨l, report⟩
  · exact decide_eq_true tick
  · exfalso
    induction n with
    | zero => cases made
    | succ n ih =>
      rw [Front.run_refclk_succ] at made
      rcases List.mem_append.mp made with before | now
      · exact ih (by omega) before
      · have before := (silent_run (h l) n).signal
        have after := (silent_run (h l) (n + 1)).signal
        rw [Front.run_refclk_succ] at after
        have short : n < 50 := by omega
        simp only [short, hn, decide_true, Bool.and_true] at before after
        rcases report with rfl | rfl
        · obtain ⟨was, now⟩ := (report_refclk (v := false) rfl).mp now
          simp_all
        · obtain ⟨was, now⟩ := (report_refclk (v := true) rfl).mp now
          simp_all

/-- The 50th cycle of silence reports every signal lost that was present, after the tick. -/
theorem commands_of_silence : (f.run (List.replicate 50 .refclk)).2 = [.routerTimeTick, .routerTimeTick] ++
    (Link.all.filter fun l => (f.receiver l).signal).map .signalLost := by
  have before := fun l => silent_run (h l) 49
  have cycles := cycles_run hc 49
  have lost : (Link.all.flatMap fun l => (((f.run (List.replicate 49 .refclk)).1.receiver l).cycle l).2) =
      (Link.all.filter fun l => (f.receiver l).signal).map .signalLost := by
    have one : ∀ l, (((f.run (List.replicate 49 .refclk)).1.receiver l).cycle l).2 =
        if (f.receiver l).signal then [.signalLost l] else [] := by
      intro l
      have was := (before l).signal
      have now := ((before l).cycle l).signal
      simp only [Nat.reduceAdd, Nat.reduceLT, decide_true, decide_false, Bool.and_true, Bool.and_false] at was now
      rw [Receiver.cycle_report, was, now]
      cases (f.receiver l).signal <;> rfl
    simp only [one]
    induction Link.all with
    | nil => rfl
    | cons l ls ih =>
      rw [List.flatMap_cons, ih, List.filter_cons]
      split <;> rfl
  have two : (f.cycles + 49) / 25 + ((f.cycles + 49) % 25 + 1) / 25 = 2 := by omega
  rw [Front.run_refclk_succ, ticks_of_silence hc h (by decide), Front.take_refclk, (Front.count_tick (by omega)).2, lost,
    ← List.append_assoc, List.replicate_append_replicate, cycles, two]
  exact congrArg (· ++ _) (show List.replicate 2 Instr.routerTimeTick = _ from rfl)

end

/-- REFCLK stops, and returns for 50 cycles: two ticks, and every report of loss (R190, log 28). -/
theorem commands_of_stop {f : Front} (hc : f.cycles < 25) : (f.run (.refclkStop :: List.replicate 50 .refclk)).2 =
    [.routerTimeTick, .routerTimeTick] ++ (Link.all.filter fun l => (f.receiver l).signal).map .signalLost := by
  have stopped : ∀ l, Silent ((f.take .refclkStop).1.receiver l) 0 ((f.take .refclkStop).1.receiver l) := fun l => by
    rw [Front.receiver_refclkStop]
    exact .start rfl (.inr (.inl rfl))
  have same : ∀ l, ((f.take .refclkStop).1.receiver l).signal = (f.receiver l).signal := fun l => by
    rw [Front.receiver_refclkStop]
    rfl
  have commands := commands_of_silence (f := (f.take .refclkStop).1) (by rwa [Front.cycles_refclkStop]) stopped
  simp only [same] at commands
  rw [Front.run_cons, show (f.take .refclkStop).2 = [] from rfl, List.nil_append, commands]

theorem signal_of_stop (f : Front) (l : Link) :
    ((f.run (.refclkStop :: List.replicate 50 .refclk)).1.receiver l).signal = false := by
  have stopped : Silent ((f.take .refclkStop).1.receiver l) 0 ((f.take .refclkStop).1.receiver l) := by
    rw [Front.receiver_refclkStop]
    exact .start rfl (.inr (.inl rfl))
  rw [Front.run_cons, (silent_run stopped 50).signal]
  exact Bool.and_false _

/-- A valid symbol ends a silence at a receiver whose signal is present. -/
theorem silent_of_symbol {f : Front} {l : Link} {x : Symbol} (hx : x ≠ .violation)
    (running : (f.receiver l).stopped = false) (present : (f.receiver l).signal = true) :
    Silent ((f.take (.symbol l x)).1.receiver l) 0 ((f.take (.symbol l x)).1.receiver l) := by
  have framed : ∀ r : Receiver, (r.deframe l x).1.quiet = r.quiet := fun r => by
    unfold Receiver.deframe
    split <;> rfl
  rw [Front.receiver_symbol]
  refine .start ?_ (.inl ((Receiver.take_frame l x _).1.trans present))
  rw [Receiver.take_valid hx present running, framed]

/-- The last valid symbol, then silence: the loss at the 50th cycle (R190). -/
theorem lost_after_symbol {f : Front} {l : Link} {x : Symbol} (hx : x ≠ .violation)
    (running : (f.receiver l).stopped = false) (present : (f.receiver l).signal = true) (n : Nat) :
    (.signalLost l ∈ (f.run (.symbol l x :: List.replicate n .refclk)).2 ↔ 50 ≤ n) ∧
    (((f.run (.symbol l x :: List.replicate n .refclk)).1.receiver l).signal = true ↔ n < 50) ∧
    (50 ≤ n → ((f.run (.symbol l x :: List.replicate n .refclk)).1.receiver l).frame = none) := by
  have silent := silent_of_symbol hx running present
  have still : ((f.take (.symbol l x)).1.receiver l).signal = true := by
    rw [Front.receiver_symbol, (Receiver.take_frame l x _).1, present]
  have after := silent_run silent n
  rw [Front.run_cons, List.mem_append, lost_of_silence silent still]
  refine ⟨⟨fun hc => hc.resolve_left (report_symbol (v := false) rfl), .inr⟩, ?_, fun long => ?_⟩
  · rw [after.signal, still, Bool.true_and, decide_eq_true_iff]
  · rw [after.frame, if_neg (by omega)]

/-! ### A run of valid symbols -/

/-- A symbol at each cycle of REFCLK. -/
def heardAt (l : Link) (xs : List Symbol) : List FrontInput := xs.flatMap fun x => [.symbol l x, .refclk]

/-- A receiver without a signal has heard valid symbols without a break for `k` cycles (R190). -/
structure Rising (k : Nat) (r : Receiver) : Prop where
  stopped : r.stopped = false
  signal : r.signal = false
  steady : r.steady.getD 0 = k
  fresh : r.heard = true → r.steady = none

/-- A valid symbol and the cycle after it: one more cycle of the run, and the report at the 50th. -/
theorem Rising.next {l : Link} {x : Symbol} (hx : x ≠ .violation) {k : Nat} (hk : k < 50) {r : Receiver} (h : Rising k r) :
    (((r.take l x).1.cycle l).1.signal = decide (k + 1 = 50)) ∧
      (k + 1 < 50 → Rising (k + 1) ((r.take l x).1.cycle l).1) := by
  obtain ⟨stopped, signal, steady, fresh⟩ := h
  have taken : (r.take l x).1 = { r with heard := true, quiet := 0, steady := some k } := by
    simp [Receiver.take, Receiver.detect, hx, stopped, signal, steady]
  rw [taken]
  unfold Receiver.cycle
  have grown : min 50 (k + 1) = k + 1 := by omega
  simp only [detectCycles, signal, if_true, Option.map_some, grown, Nat.zero_add, Option.some.injEq, and_true,
    show min 50 1 = 1 from rfl, OfNat.one_ne_ofNat, if_false]
  split
  · rename_i last
    exact ⟨(decide_eq_true last).symm, fun more => by omega⟩
  · rename_i more
    exact ⟨(decide_eq_false more).symm, fun _ => ⟨stopped, rfl, rfl, fun e => Bool.noConfusion e⟩⟩

/-- A code violation, and a cycle without a valid symbol, break the run off (R190, log 27). -/
theorem Rising.broken {f : Front} {l : Link} {k : Nat} (h : Rising k (f.receiver l)) {b : FrontInput}
    (hb : b = .symbol l .violation ∨ b = .refclk) : Rising 0 ((f.take b).1.receiver l) := by
  obtain ⟨stopped, signal, steady, fresh⟩ := h
  rcases hb with rfl | rfl
  · rw [Front.receiver_symbol]
    have taken : ((f.receiver l).take l .violation).1 = { f.receiver l with steady := none } := by
      simp [Receiver.take, Receiver.detect, stopped, signal]
    rw [taken]
    exact ⟨stopped, signal, rfl, fun _ => rfl⟩
  · rw [Front.receiver_refclk]
    have noRun : (if (f.receiver l).heard then (f.receiver l).steady.map fun n => min detectCycles (n + 1)
        else none) = none := by
      split
      · rename_i heard
        rw [fresh heard]
        rfl
      · rfl
    unfold Receiver.cycle
    simp only [noRun, signal, reduceCtorEq, false_and, if_false]
    split
    · exact ⟨rfl, rfl, rfl, fun _ => rfl⟩
    · exact ⟨stopped, rfl, rfl, fun _ => rfl⟩

theorem Rising.silent_input {f : Front} {l : Link} {k : Nat} (h : Rising k (f.receiver l)) {b : FrontInput}
    (hb : b = .symbol l .violation ∨ b = .refclk) : .signalPresent l ∉ (f.take b).2 := by
  have after := (h.broken hb).signal
  rcases hb with rfl | rfl
  · exact report_symbol (v := true) rfl
  · rw [report_refclk (v := true) rfl, after]
    exact fun hc => Bool.noConfusion hc.2

/-- Valid symbols without a break: the signal is reported present at the cycle that makes 50. -/
theorem present_of_heard {l : Link} : ∀ (xs : List Symbol) (f : Front) (k : Nat), .violation ∉ xs → k < 50 →
    Rising k (f.receiver l) → (.signalPresent l ∈ (f.run (heardAt l xs)).2 ↔ 50 ≤ k + xs.length) ∧
      (k + xs.length < 50 → Rising (k + xs.length) ((f.run (heardAt l xs)).1.receiver l)) := by
  intro xs
  induction xs with
  | nil =>
    intro f k _ hk h
    exact ⟨⟨fun hc => absurd hc List.not_mem_nil, fun hc => by simp at hc; omega⟩, fun _ => h⟩
  | cons x xs ih =>
    intro f k valid hk h
    obtain ⟨hx, rest⟩ := not_or.mp (mt List.mem_cons.mpr valid)
    obtain ⟨signal, next⟩ := h.next (l := l) (Ne.symm hx) hk
    have before : ((f.take (.symbol l x)).1.receiver l).signal = false := by
      rw [Front.receiver_symbol, (Receiver.take_frame l x _).1, h.signal]
    have made : .signalPresent l ∈ ((f.take (.symbol l x)).1.take .refclk).2 ↔ k + 1 = 50 := by
      rw [report_refclk (v := true) rfl, before, Front.receiver_refclk, Front.receiver_symbol, signal]
      simp
    have run : f.run (heardAt l (x :: xs)) =
        ((((f.take (.symbol l x)).1.take .refclk).1.run (heardAt l xs)).1, (f.take (.symbol l x)).2 ++
          (((f.take (.symbol l x)).1.take .refclk).2 ++ (((f.take (.symbol l x)).1.take .refclk).1.run (heardAt l xs)).2)) := by
      simp only [heardAt, List.flatMap_cons, List.cons_append, List.nil_append, Front.run_cons]
    rw [run, List.mem_append, List.mem_append, made, List.length_cons]
    by_cases last : k + 1 = 50
    · exact ⟨⟨fun _ => by omega, fun _ => .inr (.inl last)⟩, fun hl => by omega⟩
    · have onward := ih ((f.take (.symbol l x)).1.take .refclk).1 (k + 1) rest (by omega)
        (by rw [Front.receiver_refclk, Front.receiver_symbol]; exact next (by omega))
      rw [onward.1, show k + (xs.length + 1) = k + 1 + xs.length by omega]
      exact ⟨⟨fun hc => (hc.resolve_left (report_symbol (v := true) rfl)).resolve_left last, fun hc => .inr (.inr hc)⟩,
        onward.2⟩

/-! ### The statement -/

/-- The tick where no draining head fails, and in every state (R176, log 16). -/
theorem exec_tick {s : State} (hpor : s.porN = true) : 
    ((∀ w, s.headFails w = false) → exec .routerTimeTick s = .next { s with time := s.time + 1 }) ∧
    ∃ t, exec .routerTimeTick s = .next t ∧ t.time = s.time + 1 := by
  have run : exec .routerTimeTick s = .next (tick s) := congrArg Host.Outcome.next (whenPowered_of_high hpor _)
  refine ⟨fun passing => by rw [run, tick_eq passing], _, run, ?_⟩
  by_cases passing : ∀ w, s.headFails w = false
  · rw [tick_eq passing]
  · obtain ⟨w, fails⟩ := not_forall.mp passing
    obtain ⟨u, side, ticked⟩ := tick_uncovered (Bool.not_eq_false _ ▸ fails)
    rw [ticked, (settle_takeSide u).time, side.time]

/-- Settles O7: the three commands one by one, then the front's runs by the silence and the run of symbols at each receiver. -/
theorem tickReportAndFreeChangeOneItem : Obligations.TickReportAndFreeChangeOneItem := by
  unfold Obligations.TickReportAndFreeChangeOneItem
  refine ⟨fun s l hpor => ⟨fun passing => ?_, (exec_tick hpor).2, ?_, ?_⟩, fun f hc => ⟨?_, ?_, fun l => ?_⟩, ?_⟩
  · refine (exec_tick hpor).1 fun w => headFails_eq_false_iff.mpr fun h drains head => ?_
    obtain ⟨rest, list⟩ := List.head?_eq_some_iff.mp head
    obtain ⟨long, passes⟩ := passing w h rest drains list
    rwa [releaseFailure_eq_headFault long]
  · exact congrArg Host.Outcome.next (whenPowered_of_high hpor _)
  · exact congrArg Host.Outcome.next (whenPowered_of_high hpor _)
  · refine ⟨?_, ?_, fun c => mem_run_refclk⟩
    · rw [cycles_run hc, Nat.add_mod_right, Nat.mod_eq_of_lt hc]
    · rw [ticks_run hc, Nat.add_div_right _ (by decide), Nat.div_eq_of_lt hc]
      rfl
  · exact commands_of_stop hc
  · exact signal_of_stop f l
  · intro f l running hears
    refine ⟨fun present x n valid => lost_after_symbol valid running present n, fun absent unsteady xs valid => ?_⟩
    have rising : Rising 0 (f.receiver l) := ⟨running, absent, by rw [unsteady]; rfl, fun _ => unsteady⟩
    have first := present_of_heard xs f 0 valid (by decide) rising
    rw [Nat.zero_add] at first
    refine ⟨first.1, fun ys valid' short short' b hb => ?_⟩
    have before := first.2 short
    have after := (present_of_heard ys _ 0 valid' (by decide) (before.broken hb)).1
    rw [Front.run_append, Front.run_cons, List.mem_append, List.mem_append]
    rintro (made | made | made)
    · exact absurd (first.1.mp made) (by omega)
    · exact before.silent_input hb made
    · exact absurd (after.mp made) (by omega)

end Sys2Proof.Machine
end

section
/-! Frames as bytes and as symbols: what is written reads back (R98, R186, R187), what a receiver makes of symbols, and the
layout of a sent frame. -/

namespace Sys2Proof.Machine

-- The theorems are checked one after the other, which bounds the memory that the check takes.
set_option Elab.async false

/-! ### A sealed frame -/

@[simp] theorem length_sealFrame (body : List Byte) : (sealFrame body).length = body.length + 2 := by
  simp [sealFrame]

theorem take_sealFrame (body : List Byte) : (sealFrame body).take body.length = body := List.take_left

/-- The last two bytes of a sealed frame spell its CRC (R186). -/
theorem crc_sealFrame (body : List Byte) : beNat (((sealFrame body).drop body.length).take 2) = (crc16 body).toNat := by
  have tail : ((sealFrame body).drop body.length).take 2 = beBytes 2 (crc16 body).toNat := by
    rw [sealFrame, List.drop_left, List.take_of_length_le (by simp)]
  rw [tail, beNat_beBytes, Nat.mod_eq_of_lt (show (crc16 body).toNat < 256 ^ 2 from (crc16 body).isLt)]

/-- The command of a frame's bytes before a good CRC (R98). -/
def bodyCommand (l : Link) (size : Nat) (body : List Byte) : Instr :=
  match l with
  | .trunk => hostFrame size body
  | .branch p => moduleFrame p size body

/-- A sealed frame of a size that is examined is the command of its body. -/
theorem frameCommand_sealFrame {l : Link} {body : List Byte} (h : sizeFramed (body.length + 2) = true) :
    frameCommand l (sealFrame body) = bodyCommand l (body.length + 2) body := by
  have inner : (sealFrame body).take ((sealFrame body).length - 2) = body := by
    rw [length_sealFrame, Nat.add_sub_cancel, take_sealFrame]
  unfold frameCommand
  dsimp only
  rw [inner, if_pos ⟨by rwa [length_sealFrame], rfl⟩, length_sealFrame]
  rfl

/-! ### Reading back -/

/-- The bytes of a frame whose size holds its fields: they, and 0 for each byte that they do not give (R187). -/
theorem frameBytes_eq {c : Instr} {l : Link} {size : Nat} {body : List Byte} (h : frameBody c = some (l, size, body))
    (fits : body.length + 2 ≤ size) :
    frameBytes c = some (l, sealFrame (body ++ List.replicate (size - 2 - body.length) 0)) := by
  simp only [frameBytes, h, Option.map_some]
  rw [List.take_of_length_le (by simp only [List.length_append, List.length_replicate]; omega)]

/-- An address, read from its bytes. -/
theorem word_of_bytes {w n : Nat} (hw : w ≤ 8 * n) (a : BitVec w) (more : List Byte) :
    BitVec.ofNat w (beNat ((beBytes n a.toNat ++ more).take n)) = a := by
  have slice : ((beBytes n a.toNat ++ more).drop 0).take n = beBytes n a.toNat := List.take_left' (length_beBytes ..)
  have number := fieldAt_word slice hw
  rw [fieldAt, List.drop_zero] at number
  rw [number, BitVec.ofNat_toNat, BitVec.setWidth_eq]

/-- The kind byte of a RESULT: its range, and the status in it (R187). -/
theorem resultKind (st : BitVec 3) : 0x30#8 ||| st.setWidth 8 ≠ (0x10 : Byte) ∧
    ((0x30 : Byte) ≤ 0x30#8 ||| st.setWidth 8 ∧ 0x30#8 ||| st.setWidth 8 ≤ (0x37 : Byte)) ∧
    (0x30#8 ||| st.setWidth 8).setWidth 3 = st := by
  revert st
  decide

/-- The kind byte of an EVENT: its range, which is not that of a RESULT, and the code in it (R187). -/
theorem eventKind (code : BitVec 3) : 0x40#8 ||| code.setWidth 8 ≠ (0x10 : Byte) ∧
    ¬((0x30 : Byte) ≤ 0x40#8 ||| code.setWidth 8 ∧ 0x40#8 ||| code.setWidth 8 ≤ (0x37 : Byte)) ∧
    ((0x40 : Byte) ≤ 0x40#8 ||| code.setWidth 8 ∧ 0x40#8 ||| code.setWidth 8 ≤ (0x47 : Byte)) ∧
    (0x40#8 ||| code.setWidth 8).setWidth 3 = code := by
  revert code
  decide

/-- A frame with data has no byte left over: its size is that of its header and its data. -/
theorem filled_of_operands {size header : Nat} {data body : List Byte} (wf : frameOperands size header data = true)
    (long : body.length + 2 = header + data.length) (fits : body.length + 2 ≤ size) :
    sizeFramed size = true ∧ body ++ List.replicate (size - 2 - body.length) 0 = body := by
  obtain ⟨framed, count⟩ := Bool.and_eq_true_iff.mp wf
  have count : data.length = size - header := beq_iff_eq.mp count
  have none : size - 2 - body.length = 0 := by omega
  rw [none]
  exact ⟨framed, List.append_nil body⟩

/-- A kind byte that the host may not send has no layout (R98). -/
theorem hostFrame_disallowed {size : Nat} {k : Byte} {rest : List Byte} (h : hostKind k = false) :
    hostFrame size (k :: rest) = .disallowedKindFrame .trunk size k := by
  simp only [hostKind, Bool.or_eq_false_iff, beq_eq_false_iff_ne] at h
  obtain ⟨⟨⟨⟨⟨write, read⟩, sync⟩, ack⟩, credit⟩, reset⟩ := h
  simp only [hostFrame, List.getD_cons_zero, write, read, sync, ack, credit, reset, if_false]

/-- A kind byte that a module may not send has no layout (R98). -/
theorem moduleFrame_disallowed {p : PortIdx} {size : Nat} {k : Byte} {rest : List Byte} (h : moduleKind k = false) :
    moduleFrame p size (k :: rest) = .disallowedKindFrame (.branch p) size k := by
  simp only [moduleKind, Bool.or_eq_false_iff, beq_eq_false_iff_ne, Bool.and_eq_false_iff, decide_eq_false_iff_not,
    ← not_and_or] at h
  obtain ⟨⟨⟨⟨⟨⟨⟨write, result⟩, event⟩, sync⟩, ack⟩, credit⟩, dozeAck⟩, wake⟩ := h
  simp only [moduleFrame, List.getD_cons_zero, write, result, event, sync, ack, credit, dozeAck, wake, if_false]

/-- The body of a well-formed arrival, filled up with 0, is that arrival again: its kind byte has one layout, and each field
of that layout reads back (R98, R187). -/
theorem bodyCommand_frameBody {c : Instr} {l : Link} {size : Nat} {body : List Byte} (wf : c.wellFormed = true)
    (h : frameBody c = some (l, size, body)) (fits : body.length + 2 ≤ size) :
    sizeFramed size = true ∧ bodyCommand l size (body ++ List.replicate (size - 2 - body.length) 0) = c := by
  cases c with
  | trunkIngressFrame f =>
    cases f with
    | read n t len a =>
      obtain ⟨rfl, rfl, rfl⟩ : .trunk = l ∧ n = size ∧ 0x20 :: t :: len :: beBytes 5 a.toNat = body := by
        simpa [frameBody] using h
      exact ⟨wf, congrArg (fun x => Instr.trunkIngressFrame (.read n t len x)) (word_of_bytes (by decide) a _)⟩
    | write n len a data =>
      obtain ⟨rfl, rfl, rfl⟩ : .trunk = l ∧ n = size ∧ 0x10 :: len :: beBytes 5 a.toNat ++ data = body := by
        simpa [frameBody] using h
      obtain ⟨framed, filled⟩ := filled_of_operands wf (by simp; omega) fits
      rw [filled]
      exact ⟨framed, congrArg (fun x => Instr.trunkIngressFrame (.write n len x data)) (word_of_bytes (by decide) a _)⟩
  | trunkReset n =>
    obtain ⟨rfl, rfl, rfl⟩ : .trunk = l ∧ n = size ∧ [0xF0#8] = body := by simpa [frameBody] using h
    exact ⟨wf, rfl⟩
  | syncReceived k n a b =>
    obtain ⟨rfl, rfl, rfl⟩ : k = l ∧ n = size ∧ [0x80, a, b] = body := by simpa [frameBody] using h
    cases k <;> exact ⟨wf, rfl⟩
  | syncAckReceived k n a b =>
    obtain ⟨rfl, rfl, rfl⟩ : k = l ∧ n = size ∧ [0x90, a, b] = body := by simpa [frameBody] using h
    cases k <;> exact ⟨wf, rfl⟩
  | creditReceived k n a b =>
    obtain ⟨rfl, rfl, rfl⟩ : k = l ∧ n = size ∧ [0xA0, a, b] = body := by simpa [frameBody] using h
    cases k <;> exact ⟨wf, rfl⟩
  | moduleWriteArrival p n len a data =>
    obtain ⟨rfl, rfl, rfl⟩ : .branch p = l ∧ n = size ∧ 0x10 :: len :: beBytes 4 a.toNat ++ data = body := by
      simpa [frameBody] using h
    obtain ⟨framed, filled⟩ := filled_of_operands wf (by simp; omega) fits
    rw [filled]
    exact ⟨framed, congrArg (fun x => Instr.moduleWriteArrival p n len x data) (word_of_bytes (by decide) a _)⟩
  | branchResultArrival p n st t count data =>
    obtain ⟨rfl, rfl, rfl⟩ : .branch p = l ∧ n = size ∧ (0x30#8 ||| st.setWidth 8) :: t :: count :: data = body := by
      simpa [frameBody] using h
    obtain ⟨framed, filled⟩ := filled_of_operands wf (by simp; omega) fits
    obtain ⟨notWrite, inRange, value⟩ := resultKind st
    rw [filled]
    refine ⟨framed, ?_⟩
    simp only [bodyCommand, moduleFrame, List.getD_cons_zero, notWrite, inRange, value, if_false, if_true, and_self]
    rfl
  | eventFrame p n code =>
    obtain ⟨rfl, rfl, rfl⟩ : .branch p = l ∧ n = size ∧ [0x40#8 ||| code.setWidth 8] = body := by simpa [frameBody] using h
    refine ⟨wf, ?_⟩
    obtain ⟨notWrite, notResult, inRange, value⟩ := eventKind code
    simp only [bodyCommand, moduleFrame, List.cons_append, List.getD_cons_zero, notWrite, notResult, inRange, value, if_false,
      if_true, and_self]
  | dozeAck p n =>
    obtain ⟨rfl, rfl, rfl⟩ : .branch p = l ∧ n = size ∧ [0xB1#8] = body := by simpa [frameBody] using h
    exact ⟨wf, rfl⟩
  | moduleWake p n =>
    obtain ⟨rfl, rfl, rfl⟩ : .branch p = l ∧ n = size ∧ [0xC0#8] = body := by simpa [frameBody] using h
    exact ⟨wf, rfl⟩
  | disallowedKindFrame k n kind =>
    obtain ⟨rfl, rfl, rfl⟩ : k = l ∧ n = size ∧ [kind] = body := by simpa [frameBody] using h
    obtain ⟨framed, kindOff⟩ := Bool.and_eq_true_iff.mp wf
    have off : kindAllowed k kind = false := (Bool.not_eq_true' _).mp kindOff
    refine ⟨framed, ?_⟩
    cases k with
    | trunk => exact hostFrame_disallowed off
    | branch p => exact moduleFrame_disallowed off
  | _ => cases h

/-- A well-formed arrival is read back from its frame. -/
theorem frameCommand_frameBytes {c : Instr} {l : Link} {size : Nat} {body bytes : List Byte} (wf : c.wellFormed = true)
    (h : frameBody c = some (l, size, body)) (fits : body.length + 2 ≤ size) (hb : frameBytes c = some (l, bytes)) :
    bytes.length = size ∧ frameCommand l bytes = c := by
  obtain ⟨framed, back⟩ := bodyCommand_frameBody wf h fits
  obtain rfl : sealFrame (body ++ List.replicate (size - 2 - body.length) 0) = bytes := by
    simpa [frameBytes_eq h fits] using hb
  have long : (body ++ List.replicate (size - 2 - body.length) 0).length + 2 = size := by
    simp only [List.length_append, List.length_replicate]
    omega
  refine ⟨by rw [length_sealFrame, long], ?_⟩
  rw [frameCommand_sealFrame (by rwa [long]), long, back]

/-- A run of bytes of a size that is not examined is a frame whose CRC fails (R186). -/
theorem frameCommand_unframed {bytes : List Byte} (h : bytes.length < 3 ∨ 73 < bytes.length) (l : Link) :
    frameCommand l bytes = .crcError l := by
  have unframed : ¬sizeFramed bytes.length = true := by
    simp only [sizeFramed, Bool.and_eq_true, decide_eq_true_eq]
    omega
  exact if_neg fun hc => unframed hc.1

/-! ### A receiver of symbols -/

/-- A receiver that delivers has just heard a valid symbol, and `frame` is open. -/
def Receiver.listening (r : Receiver) (frame : Option (List Byte)) : Receiver :=
  { r with frame := frame, heard := true, quiet := 0, steady := some (r.steady.getD 0) }

section
variable {r : Receiver} (present : r.signal = true) (running : r.stopped = false) (l : Link)
include present running

/-- A valid symbol while a frame is open, or none. -/
theorem take_listening {x : Symbol} (hx : x ≠ .violation) (frame : Option (List Byte)) :
    (r.listening frame).take l x = (r.listening frame).deframe l x := by
  rw [Receiver.take_valid hx (r := r.listening frame) present running]
  rfl

/-- The frame start, then data bytes (R186). -/
theorem hear_opened (closed : r.frame = none) (bytes : List Byte) :
    r.hear l (.frameStart :: bytes.map .data) = (r.listening (some bytes), []) := by
  have start : r.take l .frameStart = (r.listening (some []), []) := by
    rw [Receiver.take_valid (by simp) present running]
    simp only [Receiver.deframe, closed]
    rfl
  rw [Receiver.hear_cons, start, Receiver.hear_data l [] bytes (r.listening (some [])) present running rfl rfl rfl rfl]
  rfl

/-- A second frame start breaks the frame that is open, and opens a new one (R186). -/
theorem hear_reopened (bytes more : List Byte) : (r.listening (some bytes)).hear l (.frameStart :: more.map .data) =
    (r.listening (some more), [.crcError l]) := by
  have start : (r.listening (some bytes)).take l .frameStart = (r.listening (some []), [.crcError l]) := by
    rw [take_listening present running l (by simp)]
    rfl
  rw [Receiver.hear_cons, start, Receiver.hear_data l [] more (r.listening (some [])) present running rfl rfl rfl rfl]
  rfl

/-- The last symbol of a frame. -/
theorem hear_last {bytes : List Byte} {x : Symbol} (hx : x ≠ .violation) : (r.listening (some bytes)).hear l [x] =
    ((r.listening (some bytes)).deframe l x) := by
  rw [Receiver.hear_cons, take_listening present running l hx, Receiver.hear_nil, List.append_nil]

/-- A code violation breaks the frame and the run of valid symbols (R186, R190). -/
theorem hear_violation {bytes : List Byte} : (r.listening (some bytes)).hear l [.violation] =
    ({ r.listening none with steady := none }, [.crcError l]) := by
  have broken : (r.listening (some bytes)).take l .violation = ({ r.listening none with steady := none }, [.crcError l]) := by
    simp [Receiver.take, Receiver.detect, Receiver.deframe, Receiver.listening, present, running]
  rw [Receiver.hear_cons, broken]
  rfl

end

/-- No frame opens without a frame start. -/
theorem hear_closed (l : Link) : ∀ (xs : List Symbol) (r : Receiver), r.frame = none → .frameStart ∉ xs →
    (r.hear l xs).2 = [] ∧ (r.hear l xs).1.frame = none := by
  intro xs
  induction xs with
  | nil => exact fun r closed _ => ⟨rfl, closed⟩
  | cons x xs ih =>
    intro r closed noStart
    obtain ⟨hx, rest⟩ := not_or.mp (mt List.mem_cons.mpr noStart)
    have heard : (r.detect x).frame = none := by
      unfold Receiver.detect
      split <;> exact closed
    have step : (r.take l x).2 = [] ∧ (r.take l x).1.frame = none := by
      unfold Receiver.take
      dsimp only
      split
      · exact ⟨rfl, closed⟩
      · split
        · cases x <;> simp_all [Receiver.deframe]
        · exact ⟨rfl, heard⟩
    obtain ⟨none', still⟩ := ih _ step.2 rest
    rw [Receiver.hear_cons, step.1, none']
    exact ⟨rfl, still⟩

/-- A receiver without a signal, or one that REFCLK has stopped, makes nothing of symbols (R190, log 28). -/
theorem hear_deaf (l : Link) : ∀ (xs : List Symbol) (r : Receiver), r.signal = false ∨ r.stopped = true →
    (r.hear l xs).2 = [] := by
  intro xs
  induction xs with
  | nil => exact fun _ _ => rfl
  | cons x xs ih =>
    intro r deaf
    obtain ⟨signal, stopped, _, silent⟩ := Receiver.take_frame l x r
    have nothing : (r.take l x).2 = [] := by
      rcases deaf with absent | stopped
      · exact silent absent
      · simp [Receiver.take, stopped]
    rw [Receiver.hear_cons, nothing, ih _ (by rwa [signal, stopped])]
    rfl

/-! ### The layout of a sent frame -/

theorem length_bytes (f : TxFrame) : f.bytes.length = f.body.length + 2 := length_sealFrame _

/-- Settles O59: the bytes by `frameCommand_frameBytes`, the symbols by the frame that is open, the layouts as slices. -/
theorem framesReadBackAsTheyAreWritten : Obligations.FramesReadBackAsTheyAreWritten := by
  unfold Obligations.FramesReadBackAsTheyAreWritten
  refine ⟨fun c l size body bytes => frameCommand_frameBytes, fun l bytes h => frameCommand_unframed h l,
    fun l r bytes more present running closed => ?_, fun l r xs => hear_deaf l xs r, fun f => ?_⟩
  · intro heard opened
    have close : r.listening none = heard := by
      simp only [Receiver.listening, heard, ← closed]
    have first := hear_opened present running l closed bytes
    refine ⟨?_, ?_, ?_, ?_, fun xs => hear_closed l xs r closed⟩
    · rw [Receiver.hear_append, first, hear_last present running l (by simp), ← close]
      rfl
    · rw [Receiver.hear_append, first, hear_last present running l (by simp), ← close]
      rfl
    · rw [Receiver.hear_append, first, hear_violation present running l, ← close]
      rfl
    · rw [Receiver.hear_append, Receiver.hear_append, first, hear_reopened present running l,
        hear_last present running l (by simp), ← close]
      rfl
  · intro n field carries
    have crc : field (n - 2) 2 = (crc16 (f.bytes.take (n - 2))).toNat := by
      have inner : n - 2 = f.body.length := by
        show f.bytes.length - 2 = _
        rw [length_bytes, Nat.add_sub_cancel]
      rw [inner]
      exact (crc_sealFrame f.body).trans (by rw [TxFrame.bytes, take_sealFrame])
    refine ⟨crc, ?_⟩
    cases f with
    | sync a b => exact ⟨length_bytes _, fieldAt_byte (b := 0x80) rfl, fieldAt_byte rfl, fieldAt_byte rfl⟩
    | syncAck a b => exact ⟨length_bytes _, fieldAt_byte (b := 0x90) rfl, fieldAt_byte rfl, fieldAt_byte rfl⟩
    | credit a b => exact ⟨length_bytes _, fieldAt_byte (b := 0xA0) rfl, fieldAt_byte rfl, fieldAt_byte rfl⟩
    | dozeReq => exact ⟨length_bytes _, fieldAt_byte (b := 0xB0) rfl⟩
    | wake => exact ⟨length_bytes _, fieldAt_byte (b := 0xC0) rfl⟩
    | moduleWrite a data =>
      exact ⟨(length_bytes _).trans (by simp only [TxFrame.body, List.length_append, List.length_cons, length_beBytes]; omega),
        fieldAt_byte (b := 0x10) rfl, fieldAt_number rfl, fieldAt_word rfl (by decide), List.take_left⟩
    | moduleRead t len a =>
      exact ⟨length_bytes _, fieldAt_byte (b := 0x20) rfl, fieldAt_narrow rfl (by decide), fieldAt_number rfl,
        fieldAt_word rfl (by decide)⟩
    | result t st data =>
      have kind : field 0 1 = (BitVec.ofNat 8 (0x30 + st.code)).toNat := fieldAt_byte rfl
      refine ⟨(length_bytes _).trans (by simp only [TxFrame.body, List.length_cons]; omega), kind.trans ?_,
        fieldAt_narrow rfl (by decide), fieldAt_number rfl, List.take_left⟩
      cases st <;> rfl
    | hostWrite a data =>
      exact ⟨(length_bytes _).trans (by simp only [TxFrame.body, List.length_append, List.length_cons, length_beBytes]; omega),
        fieldAt_byte (b := 0x10) rfl, fieldAt_number rfl, fieldAt_word rfl (by decide), List.take_left⟩
    | notice v => exact ⟨length_bytes _, fieldAt_byte (b := 0x50) rfl, fieldAt_byte rfl⟩

end Sys2Proof.Machine
end

section
/-! Deadlines and due frames stand only in the states that give them, and a port in UP keeps its idle deadline while it is idle
(O55). `Timed` says it of one operation, for the ports outside a set of those that the operation leaves open until their idleness
is looked at again (R113). -/

namespace Sys2Proof.Machine

-- The theorems are checked one after the other, which bounds the memory that the check takes.
set_option Elab.async false

/-! ### The relation -/

/-- The deadlines and due frames of a port stand in the states that give them (R110, R113, R115, R120). -/
def PortBlock.timersFit (b : PortBlock) : Prop :=
  (b.answer.isSome = true → b.state = .dozeWait) ∧ (b.wake.isSome = true ↔ b.state = .waking) ∧
  (b.idle.isSome = true → b.state = .up) ∧ (b.dozeReqDue = true → b.state = .dozeWait) ∧
  (b.wakeDue = true → b.state = .up ∨ b.state = .waking) ∧ (b.dozeRequested = true → b.state = .up)

/-- The items of a link's training stand in the link states that give them (R83, R87, R91, R92). -/
def LinkEnd.fits (e : LinkEnd) (training down live : Bool) : Prop :=
  (e.resend.isSome = true ∨ e.syncDue = true → training = true) ∧ (e.retry.isSome = true → down = true) ∧
  (e.syncAckDue = true → live = true) ∧ (e.creditPending = true → training = false ∧ down = false) ∧
  e.syncsSent + once e.syncDue ≤ 32

def PortBlock.linkFit (b : PortBlock) : Prop :=
  b.link.fits (b.state == .training) (b.state == .down) (b.state == .up || b.state == .dozeWait)

def State.trunkFit (s : State) : Prop :=
  s.trunk.fits (s.trunkState == .training) (s.trunkState == .down) (s.trunkState == .up)

theorem linkTimers_iff {s : State} : s.linkTimers ↔ s.trunkFit ∧ ∀ p, (s.port p).linkFit :=
  ⟨fun h => ⟨h .trunk, fun p => h (.branch p)⟩, fun ⟨trunk, ports⟩ l => match l with
    | .trunk => trunk
    | .branch p => ports p⟩

/-- The idle deadline of a port in UP that is idle or not: there exactly while it is idle with an interval, and doze requested
only while it is not (R113, R114). -/
def PortBlock.idleFit (b : PortBlock) (rest : Bool) : Prop :=
  (b.idle.isSome = true ↔ rest = true ∧ b.autoDoze ≠ 0) ∧ (b.dozeRequested = true → rest = false)

/-- Every port in UP has an idle deadline only with an interval, and outside the open set `X` exactly while it is idle. -/
structure Clocked (X : PortIdx → Prop) (s : State) : Prop where
  timers : ∀ p, (s.port p).timersFit
  interval : ∀ p, (s.port p).state = .up → (s.port p).idle.isSome = true → (s.port p).autoDoze ≠ 0
  idle : ∀ p, ¬X p → (s.port p).state = .up → (s.port p).idleFit (s.portIdle p)

/-- No port is open. -/
def allClosed : PortIdx → Prop := fun _ => False

/-- The set `X` and one port more. -/
def alsoOpen (X : PortIdx → Prop) (p : PortIdx) : PortIdx → Prop := fun q => X q ∨ q = p

theorem clocked_iff {s : State} (h : s.portTimers) : Clocked allClosed s ↔ s.idleKept :=
  ⟨fun c p => c.idle p id, fun c => ⟨h, fun p up some' => ((c p up).1.mp some').2, fun p _ => c p⟩⟩

/-- The timers of a port and of its link carry over. -/
structure PortTimes (b c : PortBlock) : Prop where
  timers : b.timersFit → c.timersFit
  link : b.linkFit → c.linkFit

theorem PortTimes.refl (b : PortBlock) : PortTimes b b := ⟨id, id⟩

theorem PortTimes.trans {b c d : PortBlock} (h : PortTimes b c) (k : PortTimes c d) : PortTimes b d :=
  ⟨k.timers ∘ h.timers, k.link ∘ h.link⟩

/-- An operation keeps the timers in their states, and the idle deadlines of the ports outside the open set, which goes from `X`
to `Y`. -/
structure Timed (X Y : PortIdx → Prop) (s t : State) : Prop where
  placed : s.placed → t.placed
  ports : ∀ p, PortTimes (s.port p) (t.port p)
  trunk : s.trunkFit → t.trunkFit
  clocked : s.placed → Clocked X s → Clocked Y t

section
variable {X Y Z : PortIdx → Prop} {s t u : State}

theorem Timed.refl (s : State) : Timed X X s s := ⟨id, fun _ => .refl _, id, fun _ => id⟩

theorem Timed.trans (h : Timed X Y s t) (k : Timed Y Z t u) : Timed X Z s u :=
  ⟨k.placed ∘ h.placed, fun p => (h.ports p).trans (k.ports p), k.trunk ∘ h.trunk,
    fun hp c => k.clocked (h.placed hp) (h.clocked hp c)⟩

/-- More ports may be open. -/
theorem Timed.widen (h : Timed X Y s t) (hz : ∀ p, Y p → Z p) : Timed X Z s t :=
  ⟨h.placed, h.ports, h.trunk, fun hp c => ⟨(h.clocked hp c).timers, (h.clocked hp c).interval,
    fun p hn => (h.clocked hp c).idle p (hn ∘ hz p)⟩⟩

theorem timed_foldl {α : Type} {f : State → α → State} (h : ∀ s x, Timed X X s (f s x)) (l : List α) (s : State) :
    Timed X X s (l.foldl f s) := by
  induction l generalizing s with
  | nil => exact .refl s
  | cons x l ih => exact (h s x).trans (ih _)

end

/-! ### Operations that leave idleness -/

/-- A port keeps its timers, and in UP is where it was before, with the same idle deadline, interval, doze requested and
buffer. -/
structure PortCalm (b c : PortBlock) : Prop extends PortTimes b c where
  like : c.state = .up → b.state = .up ∧ c.idle = b.idle ∧ c.autoDoze = b.autoDoze ∧ c.dozeRequested = b.dozeRequested ∧
    c.buffer = b.buffer

theorem PortCalm.refl (b : PortBlock) : PortCalm b b := ⟨.refl b, fun up => ⟨up, rfl, rfl, rfl, rfl⟩⟩

theorem portIdle_iff {s : State} {p : PortIdx} :
    s.portIdle p = true ↔ (s.port p).queue = [] ∧ (s.port p).buffer = [] ∧ ∀ i, (s.entry i).worksFor p = false := by
  have entries : (s.entries.toList.all fun e => !e.worksFor p) = true ↔ ∀ i, (s.entry i).worksFor p = false := by
    rw [List.all_eq_true]
    constructor
    · exact fun h i => by simpa using h (s.entry i) (by simp [State.entry])
    · intro h e he
      obtain ⟨i, hi, rfl⟩ := List.getElem_of_mem he
      simpa [State.entry] using h ⟨i, by simpa using hi⟩
  simp only [State.portIdle, Bool.and_eq_true, List.isEmpty_iff, entries, and_assoc]

/-- A port is idle as before where its queue, its buffer and what works for it are as before. -/
theorem portIdle_congr {s t : State} {p : PortIdx} (queue : (t.port p).queue = (s.port p).queue)
    (buffer : (t.port p).buffer = (s.port p).buffer) (works : ∀ i, (t.entry i).worksFor p = (s.entry i).worksFor p) :
    t.portIdle p = s.portIdle p := by
  rw [Bool.eq_iff_iff, portIdle_iff, portIdle_iff, queue, buffer]
  simp only [works]

/-- What the entries that work for it, its queue and its buffer leave of a calm port. -/
theorem Clocked.calm {X Y : PortIdx → Prop} {s t : State} (c : Clocked X s) (ports : ∀ p, PortCalm (s.port p) (t.port p))
    (rest : ∀ p, ¬Y p → (t.port p).state = .up → ¬X p ∧ t.portIdle p = s.portIdle p) : Clocked Y t where
  timers p := (ports p).timers (c.timers p)
  interval p up := by
    obtain ⟨was, idle, interval, _, _⟩ := (ports p).like up
    rw [idle, interval]
    exact c.interval p was
  idle p closed up := by
    obtain ⟨was, idle, interval, requested, _⟩ := (ports p).like up
    obtain ⟨closed', same⟩ := rest p closed up
    rw [PortBlock.idleFit, idle, interval, requested, same]
    exact c.idle p closed' was

section
variable {X : PortIdx → Prop} {s t : State}

/-- An operation that moves no READ and leaves the ports calm. -/
theorem timed_of_calm (h : Unmoved s t) (ports : ∀ p, PortCalm (s.port p) (t.port p)) (trunk : s.trunkFit → t.trunkFit) :
    Timed X X s t :=
  ⟨h.housed.placed, fun p => (ports p).toPortTimes, trunk, fun _ c => c.calm ports fun p closed up => by
    obtain ⟨_, _, _, _, buffer⟩ := (ports p).like up
    exact ⟨closed, portIdle_congr (h.ports p).queue buffer fun i => by rw [h.entry]⟩⟩

/-- An operation that moves no READ and does not touch the ports. -/
theorem timed_of_ports (h : Unmoved s t) (ports : ∀ p, t.port p = s.port p) (trunk : s.trunkFit → t.trunkFit) : Timed X X s t :=
  timed_of_calm h (fun p => by rw [ports]; exact .refl _) trunk

theorem timed_setPort {p : PortIdx} {b : PortBlock} (steady : PortSteady (s.port p) b) (calm : PortCalm (s.port p) b) :
    Timed X X s (s.setPort p b) := by
  refine timed_of_calm (unmoved_setPort steady) (fun q => ?_) id
  rw [State.port_setPort]
  split
  · rename_i hq
    rwa [← hq]
  · exact .refl _

/-- How a link end fits its link. -/
def State.linkFit (s : State) (l : Link) (e : LinkEnd) : Prop := e.fits (s.linkTraining l) (s.linkDown l) (s.linkLive l)

/-- A link end is replaced by one that fits as well. -/
theorem timed_setLink {l : Link} {e : LinkEnd} (h : s.linkFit l (s.linkEnd l) → s.linkFit l e) :
    Timed X X s (s.setLink l e) := by
  cases l with
  | trunk => exact timed_of_ports {} (fun _ => rfl) h
  | branch p =>
    exact timed_setPort ⟨rfl, rfl, fun _ => id⟩ ⟨⟨id, h⟩, fun up => ⟨up, rfl, rfl, rfl, rfl⟩⟩

/-- The counts and the frame in transmission of a link end have no part in its timers. -/
theorem timed_counts {l : Link} {e : LinkEnd} (resend : e.resend = (s.linkEnd l).resend := by rfl)
    (retry : e.retry = (s.linkEnd l).retry := by rfl) (syncDue : e.syncDue = (s.linkEnd l).syncDue := by rfl)
    (syncAckDue : e.syncAckDue = (s.linkEnd l).syncAckDue := by rfl)
    (creditPending : e.creditPending = (s.linkEnd l).creditPending := by rfl)
    (syncsSent : e.syncsSent = (s.linkEnd l).syncsSent := by rfl) :
    Timed X X s (s.setLink l e) :=
  timed_setLink fun h => by
    rw [State.linkFit, LinkEnd.fits, resend, retry, syncDue, syncAckDue, creditPending, syncsSent]
    exact h

end

/-! ### Port idleness -/

section
variable {X : PortIdx → Prop} {s t : State} {p : PortIdx}

/-- An operation that leaves one port open: its timers carry over, the others are as they were. -/
theorem timed_open (placed : s.placed → t.placed) (others : ∀ q, q ≠ p → t.port q = s.port q)
    (times : PortTimes (s.port p) (t.port p)) (trunk : s.trunkFit → t.trunkFit)
    (interval : Clocked X s → (t.port p).state = .up → (t.port p).idle.isSome = true → (t.port p).autoDoze ≠ 0)
    (works : s.placed → ∀ q, q ≠ p → ∀ i, (t.entry i).worksFor q = (s.entry i).worksFor q) :
    Timed X (alsoOpen X p) s t := by
  have ports : ∀ q, PortTimes (s.port q) (t.port q) := fun q => by
    by_cases hq : q = p
    · rwa [hq]
    · rw [others q hq]
      exact .refl _
  refine ⟨placed, ports, trunk, fun hp c => ⟨fun q => (ports q).timers (c.timers q), fun q => ?_, fun q closed => ?_⟩⟩
  · by_cases hq : q = p
    · rw [hq]
      exact interval c
    · rw [others q hq]
      exact c.interval q
  · obtain ⟨closed, hq⟩ := not_or.mp closed
    rw [portIdle_congr (s := s) (by rw [others q hq]) (by rw [others q hq]) (works hp q hq), others q hq]
    exact c.idle q closed

/-- One port of those that are open is found as it should be. -/
theorem Timed.close {Z : PortIdx → Prop} (h : Timed Z (alsoOpen X p) s t)
    (fit : Clocked Z s → (t.port p).state = .up → (t.port p).idleFit (t.portIdle p)) : Timed Z X s t :=
  ⟨h.placed, h.ports, h.trunk, fun hp c => ⟨(h.clocked hp c).timers, (h.clocked hp c).interval, fun q closed => by
    by_cases hq : q = p
    · rw [hq]
      exact fit c
    · exact (h.clocked hp c).idle q (not_or.mpr ⟨closed, hq⟩)⟩⟩

/-- A write of an open port's items, its queue and buffer kept. -/
theorem timed_setPort_open {b : PortBlock} (steady : PortSteady (s.port p) b) (times : PortTimes (s.port p) b)
    (interval : Clocked X s → b.state = .up → b.idle.isSome = true → b.autoDoze ≠ 0) :
    Timed X (alsoOpen X p) s (s.setPort p b) := by
  refine timed_open (unmoved_setPort steady).housed.placed (fun q hq => State.port_setPort_ne s p b q (Ne.symm hq))
    (by rwa [State.port_setPort_self]) id (by rwa [State.port_setPort_self]) fun _ _ _ _ => rfl

/-- The entry to DOZE_WAIT from UP (R110, R115). -/
theorem timed_enterDozeWait (up : (s.port p).state = .up) : Timed X X s (enterDozeWait p s) := by
  refine timed_setPort (portSteady_of_accepts (accepts_of_up up) rfl rfl) ⟨⟨fun h => ?_, fun h => ?_⟩, PortState.noConfusion⟩
  · simp_all [PortBlock.timersFit]
  · rw [PortBlock.linkFit, up] at h
    exact h

end

/-- An idle deadline that is set in UP stands in its state. -/
theorem portTimes_idle {b : PortBlock} (up : b.state = .up) (d : Option Time) : PortTimes b { b with idle := d } := by
  refine ⟨fun h => ?_, id⟩
  simp_all [PortBlock.timersFit]

section
variable {X : PortIdx → Prop} {s u : State} {p : PortIdx}

/-- The three outcomes of a look at a port's idleness in UP, and what each leaves (R113, R114). -/
theorem refreshIdle_up (up : (s.port p).state = .up) :
    refreshIdle p s = enterDozeWait p s ∨
    ∃ d, refreshIdle p s = s.setPort p { s.port p with idle := d } ∧
      (d.isSome = true → (s.port p).idle = d ∨ (s.port p).autoDoze ≠ 0) ∧
      (((s.port p).idle.isSome = true → (s.port p).autoDoze ≠ 0) →
        PortBlock.idleFit { s.port p with idle := d } (s.portIdle p)) := by
  unfold refreshIdle
  rw [if_pos up]
  split
  · rename_i rest
    split
    · exact .inl rfl
    · rename_i unasked
      split
      · refine .inr ⟨s.idleFrom p, rfl, fun some' => .inr fun zero => ?_, fun _ => ?_⟩
        · simp [State.idleFrom, zero] at some'
        · simp only [PortBlock.idleFit, State.idleFrom, rest]
          split <;> simp_all
      · rename_i set
        refine .inr ⟨(s.port p).idle, (State.setPort_port s p).symm, fun _ => .inl rfl, fun interval => ?_⟩
        have set : (s.port p).idle.isSome = true := by simpa [Option.isSome_iff_ne_none] using set
        exact ⟨⟨fun h => ⟨rest, interval h⟩, fun _ => set⟩, fun h => absurd h unasked⟩
  · rename_i busy
    have busy : s.portIdle p = false := by simpa using busy
    exact .inr ⟨none, rfl, fun h => by simp at h, fun _ => by simp [PortBlock.idleFit, busy]⟩

/-- A look at an open port's idleness closes it (R113, R114). -/
theorem timed_refreshIdle (p : PortIdx) (s : State) : Timed (alsoOpen X p) X s (refreshIdle p s) := by
  by_cases up : (s.port p).state = .up
  · rcases refreshIdle_up up with doze | ⟨d, set, origin, fit⟩
    · rw [doze]
      refine (timed_enterDozeWait up).close fun _ now => ?_
      rw [enterDozeWait, State.modPort_eq, State.port_setPort_self] at now
      cases now
    · rw [set]
      have written : Timed (alsoOpen X p) (alsoOpen (alsoOpen X p) p) s (s.setPort p { s.port p with idle := d }) :=
        timed_setPort_open ⟨rfl, rfl, fun _ => id⟩ (portTimes_idle up d) fun c _ some' => by
          rcases origin some' with same | interval
          · exact c.interval p up (by rwa [same])
          · exact interval
      refine (written.widen fun q hq => hq.elim id .inr).close fun c _ => ?_
      have rest : (s.setPort p { s.port p with idle := d }).portIdle p = s.portIdle p :=
        portIdle_congr (by rw [State.port_setPort_self]) (by rw [State.port_setPort_self]) fun _ => rfl
      rw [rest, State.port_setPort_self]
      exact fit (c.interval p up)
  · rw [refreshIdle, if_neg up]
    exact (Timed.refl s).close fun _ now => absurd now up

theorem Timed.refreshed {Z : PortIdx → Prop} (h : Timed Z (alsoOpen X p) s u) : Timed Z X s (refreshIdle p u) :=
  h.trans (timed_refreshIdle p u)

end

/-! ### Grants of the general queue, and faults -/

section
variable {X : PortIdx → Prop}

/-- A consumption sets CREDIT pending on a live link alone (R93). -/
theorem timed_consume (l : Link) (c : CreditClass) (s : State) : Timed X X s (s.consume l c) := by
  refine timed_setLink fun ⟨resend, retry, ack, credit, sent⟩ => ?_
  have live : s.linkLive l = true → s.linkTraining l = false ∧ s.linkDown l = false := by
    cases l with
    | trunk => cases h : s.trunkState <;> simp [State.linkLive, State.linkTraining, State.linkDown, h]
    | branch p => cases h : (s.port p).state <;> simp [State.linkLive, State.linkTraining, State.linkDown, h]
  have pending : ((s.linkEnd l).creditPending || s.linkLive l) = true → s.linkTraining l = false ∧ s.linkDown l = false := by
    intro h
    rcases Bool.or_eq_true_iff.mp h with h | h
    · exact credit h
    · exact live h
  cases c <;> exact ⟨resend, retry, ack, pending, sent⟩

theorem timed_grantBranch (p : PortIdx) (s : State) : Timed X X s (grantBranch p s) := by
  unfold grantBranch
  split
  · exact .refl s
  · rename_i w rest hb
    refine Timed.refreshed (Timed.trans ?_ (timed_consume (X := alsoOpen X p) (.branch p) .a _))
    refine Timed.trans (t := s.setPort p { s.port p with buffer := rest }) ?_ (timed_of_ports {} (fun _ => rfl) id)
    exact timed_setPort_open ⟨rfl, rfl, fun _ h => by rw [hb] at h; cases h⟩ ⟨id, id⟩ fun c => c.interval p

theorem timed_grantEvent (s : State) : Timed X X s (grantEvent s) := by
  unfold grantEvent
  split
  · exact .refl s
  · exact timed_of_ports {} (fun _ => rfl) id

theorem timed_serveLoop (n : Nat) (s : State) : Timed X X s (serveLoop n s) := by
  induction n generalizing s with
  | zero => exact .refl s
  | succ n ih =>
    simp only [serveLoop]
    split
    · split
      · exact (timed_grantBranch _ s).trans (ih _)
      · exact (timed_grantEvent s).trans (ih _)
      · exact .refl s
      · exact .refl s
    · exact .refl s

theorem timed_serveClaims (s : State) : Timed X X s (serveClaims s) := timed_serveLoop ..

theorem timed_arrival (i : LineIdx) (s : State) : Timed X X s (arrival i s) :=
  Timed.trans (t := s.setLine i (s.line i).arrive) (timed_of_ports {} (fun _ => rfl) id) (timed_serveClaims _)

theorem timed_recordFault (k : FaultKind) (src : FaultSource) (w : Option WindowIdx) (t : Option (BitVec 6))
    (a : Option HostAddr) (c : Option FaultCount) (s : State) : Timed X X s (recordFault k src w t a c s) := by
  have taken : ∀ r, Timed X X s (takeFault r s) := fun r => by
    rw [takeFault_eq]
    exact timed_of_ports {} (fun _ => rfl) id
  exact (taken _).trans (timed_arrival ..)

/-! ### Frames discarded, and training -/

theorem timed_discardFrame (l : Link) (s : State) : Timed X X s (discardFrame l s) := timed_counts

theorem timed_frameInvalid (l : Link) (kind : Byte) (c : Option CreditClass) (s : State) :
    Timed X X s (frameInvalid l kind c s) := by
  refine Timed.trans (timed_discardFrame l s) ?_
  cases c with
  | none => exact timed_recordFault ..
  | some c => exact (timed_consume ..).trans (timed_recordFault ..)

theorem timed_creditOverrun (l : Link) (c : CreditClass) (t : Option (BitVec 6)) (a : HostAddr) (s : State) :
    Timed X X s (creditOverrun l c t a s) :=
  ((timed_discardFrame l s).trans (timed_consume ..)).trans (timed_recordFault ..)

/-- A SYNC of a training that has sent less than 32 (R87, R91). -/
theorem timed_dueSync {l : Link} {s : State} (training : s.linkTraining l = true) (few : (s.linkEnd l).syncsSent < 32) :
    Timed X X s (dueSync l s) := by
  unfold dueSync
  split
  · refine timed_setLink fun ⟨_, retry, ack, _, _⟩ => ⟨fun _ => training, retry, ack, fun h => Bool.noConfusion h, ?_⟩
    show (s.linkEnd l).syncsSent + 1 + 0 ≤ 32
    omega
  · refine timed_setLink fun ⟨_, retry, ack, credit, _⟩ => ⟨fun _ => training, retry, ack, credit, ?_⟩
    show (s.linkEnd l).syncsSent + 1 ≤ 32
    omega

/-- A port that is not in UP afterwards, its queue kept. -/
theorem timed_setPort_notUp {s : State} {p : PortIdx} {b : PortBlock} (queue : b.queue = (s.port p).queue)
    (times : PortTimes (s.port p) b) (notUp : b.state ≠ .up) : Timed X X s (s.setPort p b) := by
  have placed : s.placed → (s.setPort p b).placed := placed_of_readsAt (fun _ => rfl) fun x => by
    rw [readsAt_setPort]
    split
    · rename_i hx
      rw [hx, queue]
      rfl
    · rfl
  have opened : Timed X (alsoOpen X p) s (s.setPort p b) :=
    timed_open placed (fun q hq => State.port_setPort_ne s p b q (Ne.symm hq)) (by rwa [State.port_setPort_self]) id
      (fun _ up => absurd up (by rwa [State.port_setPort_self])) fun _ _ _ _ => rfl
  exact opened.close fun _ up => absurd up (by rwa [State.port_setPort_self])

/-- A link enters TRAINING: what its other states gave ends, and the first SYNC is transmitted or due (R87). -/
theorem timed_startTraining (l : Link) (s : State) : Timed X X s (startTraining l s) := by
  have begun : Timed X X s ((setTraining l s).modLink l fun e => { e with
      syncsSent := 0, resend := none, retry := none, creditPending := false, syncAckDue := false, syncDue := false }) := by
    cases l with
    | trunk => exact timed_of_ports {} (fun _ => rfl) fun _ => by simp [State.trunkFit, LinkEnd.fits, setTraining, once]
    | branch p =>
      have ended : Timed X X s (s.setPort p { s.port p with
          state := .training, dozeRequested := false, answer := none, wake := none, idle := none, dozeReqDue := false
          wakeDue := false
          link := { (s.port p).link with
            syncsSent := 0, resend := none, retry := none, creditPending := false, syncAckDue := false, syncDue := false } }) :=
        timed_setPort_notUp rfl
          ⟨fun _ => by simp [PortBlock.timersFit], fun _ => by simp [PortBlock.linkFit, LinkEnd.fits, once]⟩
          PortState.noConfusion
      simpa [setTraining] using ended
  refine begun.trans (timed_dueSync ?_ ?_)
  · cases l <;> simp [State.linkTraining, setTraining]
  · rw [State.modLink_eq, State.linkEnd_setLink]
    exact Nat.zero_lt_succ 31

/-- A frame whose CRC fails (R99). -/
theorem timed_crcFail (l : Link) (s : State) : Timed X X s (crcFail l s) := by
  have counted : Timed X X s (s.modLink l fun e => { e with crcErrors := e.crcErrors + 1 }) := timed_counts
  unfold crcFail
  dsimp only
  split
  · exact .refl s
  · exact (counted.trans (timed_recordFault ..)).trans (timed_startTraining ..)
  all_goals exact counted

/-! ### Hold lists and branch egress queues -/

/-- The entry to WAKING from a doze state (R110, R116, R119). -/
theorem timed_enterWaking {p : PortIdx} {s : State} (doze : (s.port p).state = .doze ∨ (s.port p).state = .dozeWait)
    (started : Bool) : Timed X X s (enterWaking started p s) := by
  have waking : Timed X X s (s.setPort p { s.port p with
      state := .waking, wake := some (s.time + (s.port p).wakeLimit.setWidth 32), answer := none, idle := none
      dozeReqDue := false, wakeDue := started, link := { (s.port p).link with syncAckDue := false } }) := by
    refine timed_setPort_notUp rfl ⟨fun h => ?_, fun h => ?_⟩ PortState.noConfusion
    · rcases doze with h' | h' <;> simp_all [PortBlock.timersFit]
    · obtain ⟨resend, retry, _, credit, sent⟩ := h
      rcases doze with h' | h' <;> rw [h'] at resend retry credit <;>
        exact ⟨resend, retry, fun e => Bool.noConfusion e, credit, sent⟩
  simpa [enterWaking] using waking

/-! #### What works for a port -/

/-- An entry that is answered works for no port (R73, R75). -/
theorem worksFor_toReplying (i : EntryIdx) (st : Status) (data : List Byte) (s : State) (j : EntryIdx) (p : PortIdx) :
    ((toReplying i st data s).entry j).worksFor p = if j = i then false else (s.entry j).worksFor p := by
  unfold toReplying
  split
  · rename_i free
    split
    · rename_i hj
      rw [hj, Entry.worksFor, free]
    · rfl
  · rename_i v live
    split
    · rename_i replying
      split
      · rename_i hj
        rw [hj, Entry.worksFor, live]
        cases hst : v.stage <;> simp [hst, Stage.isReplying] at replying ⊢
      · rfl
    · show ((s.setEntry i _).entry j).worksFor p = _
      rw [State.entry_setEntry]
      split
      · rename_i hj
        rw [if_pos hj.symm]
        rfl
      · rename_i hj
        rw [if_neg (Ne.symm hj)]

/-- A READ that a hold list holds works for no port (R66). -/
theorem worksFor_of_held {s : State} (hs : s.placed) {i : EntryIdx} {w : WindowIdx} (hi : i ∈ heldReads (s.holdList w))
    (p : PortIdx) : (s.entry i).worksFor p = false := by
  have place : (s.entry i).place = some (.held w) := (hs.mem_iff (x := .held w)).mp hi
  rw [← Bool.not_eq_true, worksFor_iff, place]
  simp

/-- An entry that is queued for one port works for no other. -/
theorem worksFor_setStage_other {r : Route} {p : PortIdx} (hp : r.port ≠ p) {i j : EntryIdx} {s : State} :
    ((setStage i (.queued r) s).entry j).worksFor p = if j = i then false else (s.entry j).worksFor p := by
  unfold setStage
  rw [State.entry_setEntry]
  split
  · rename_i hj
    rw [if_pos hj.symm, Entry.worksFor]
    cases (s.entry i).live with
    | none => rfl
    | some v => exact beq_eq_false_iff_ne.mpr hp
  · rename_i hj
    rw [if_neg (Ne.symm hj)]

theorem worksFor_of_free {e : Entry} (h : e.live = none) (p : PortIdx) : e.worksFor p = false := by rw [Entry.worksFor, h]

/-- An operation on entries that changes nothing of what works for a port. -/
theorem timed_entries {s t : State} (placed : s.placed → t.placed) (ports : ∀ p, t.port p = s.port p)
    (works : s.placed → ∀ p i, (t.entry i).worksFor p = (s.entry i).worksFor p) (trunk : t.trunk = s.trunk := by rfl)
    (state : t.trunkState = s.trunkState := by rfl) : Timed X X s t where
  placed := placed
  ports p := by rw [ports]; exact .refl _
  trunk h := by rwa [State.trunkFit, trunk, state]
  clocked hp c := c.calm (fun p => by rw [ports]; exact .refl _) fun p closed _ =>
    ⟨closed, portIdle_congr (by rw [ports]) (by rw [ports]) (works hp p)⟩

/-! #### Placing a request -/

theorem portTimes_withRequest (b : PortBlock) (q : Queued) (now : Time) : PortTimes b (b.withRequest q now) := by
  unfold PortBlock.withRequest
  split
  · rename_i doze
    refine ⟨fun h => ?_, fun h => ?_⟩
    · simp_all [PortBlock.timersFit]
    · rw [PortBlock.linkFit, doze] at h
      obtain ⟨resend, retry, _, credit, sent⟩ := h
      exact ⟨resend, retry, fun e => Bool.noConfusion e, credit, sent⟩
  · rename_i up
    refine ⟨fun h => ?_, id⟩
    simp_all [PortBlock.timersFit]
  all_goals exact ⟨id, id⟩

/-- A port in UP that takes a request has no idle deadline. -/
theorem idle_withRequest {b : PortBlock} {q : Queued} {now : Time} (up : (b.withRequest q now).state = .up) :
    (b.withRequest q now).idle = none := by
  unfold PortBlock.withRequest at up ⊢
  split <;> simp_all

/-- A request joins the queue of its port, the entry of a READ going to the same port (R30, R66, R108). -/
theorem timed_placeEgress {s u : State} {p : PortIdx} {q : Queued} (placed : s.placed → (placeEgress p q u).placed)
    (ports : ∀ k, u.port k = s.port k)
    (works : s.placed → ∀ k, k ≠ p → ∀ i, (u.entry i).worksFor k = (s.entry i).worksFor k)
    (trunk : u.trunk = s.trunk := by rfl) (state : u.trunkState = s.trunkState := by rfl) :
    Timed X X s (placeEgress p q u) := by
  rw [placeEgress_eq, ports] at placed ⊢
  have taken : (u.setPort p ((s.port p).withRequest q u.time)).port p = (s.port p).withRequest q u.time :=
    State.port_setPort_self ..
  refine Timed.close (p := p)
    (timed_open placed (fun k hk => ?_) ?_ (fun h => ?_) (fun _ up some' => ?_) works) fun _ up => ?_
  · rw [State.port_setPort_ne _ _ _ _ (Ne.symm hk), ports]
  · rw [taken]
    exact portTimes_withRequest ..
  · show LinkEnd.fits u.trunk _ _ _
    rw [State.setPort_trunkState, trunk, state]
    exact h
  · rw [taken] at up some'
    rw [idle_withRequest up] at some'
    cases some'
  · have busy : (u.setPort p ((s.port p).withRequest q u.time)).portIdle p = false :=
      portIdle_of_queue (by rw [taken, (withRequest_queue ..).1]; simp)
    rw [taken] at up ⊢
    rw [busy, PortBlock.idleFit, idle_withRequest up]
    simp

/-- The head of a list goes to the queue of its window's port (R30). -/
theorem timed_release {s : State} {w : WindowIdx} (h : s.egressFree (s.window w).portIdx = true) :
    Timed X X s (release w s) := by
  have placed := (housed_release h).placed
  cases hl : s.holdList w with
  | nil => simp only [release, hl]; exact .refl s
  | cons x rest =>
    cases hb : x.body with
    | write d =>
      rw [release_write hl hb] at placed ⊢
      exact timed_placeEgress placed (fun _ => rfl) fun _ _ _ _ => rfl
    | read i =>
      rw [release_read hl hb] at placed ⊢
      refine timed_placeEgress placed (fun _ => rfl) fun hs k hk j => ?_
      have held := worksFor_of_held hs (show i ∈ heldReads (s.holdList w) by simp [hl, heldReads_cons, hb]) k
      rw [worksFor_setStage_other (Ne.symm hk)]
      split
      · rename_i hj
        rw [hj, held]
      · rfl

/-! #### Examinations -/

/-- The head of a hold list ends (R20, R28). -/
theorem timed_endHead {s : State} {w : WindowIdx} {x : Held} {rest : List Held} (hl : s.holdList w = x :: rest) (st : Status) :
    Timed X X s (endHeld st x (s.setHoldList w rest)) := by
  have placed := (housed_endHead hl st).placed
  unfold endHeld at placed ⊢
  cases hb : x.body with
  | write d =>
    simp only [hb] at placed
    exact timed_entries placed (fun _ => rfl) fun _ _ _ => rfl
  | read i =>
    simp only [hb] at placed
    have side := toReplying_branchSide i st [] (s.setHoldList w rest)
    refine timed_entries placed (fun p => port_toReplying ..) (fun hs p j => ?_) side.trunk side.trunkState
    rw [worksFor_toReplying]
    split
    · rename_i hj
      rw [hj, worksFor_of_held hs (show i ∈ heldReads (s.holdList w) by simp [hl, heldReads_cons, hb])]
    · rfl

theorem timed_failRun (w : WindowIdx) (n : Nat) (s : State) : Timed X X s (failRun w n s) := by
  induction n generalizing s with
  | zero => exact .refl s
  | succ n ih =>
    simp only [failRun]
    split
    · split
      · exact .refl s
      · rename_i x rest hl
        split
        · exact .refl s
        · exact (timed_endHead hl _).trans ((timed_recordFault ..).trans (ih _))
    · exact .refl s

theorem timed_examineHeads (w : WindowIdx) (s : State) : Timed X X s (examineHeads w s) := timed_failRun ..

theorem timed_examineAll (s : State) : Timed X X s (examineAll s) := timed_foldl (fun s w => timed_examineHeads w s) _ s

theorem timed_examinePort (p : PortIdx) (s : State) : Timed X X s (examinePort p s) :=
  timed_foldl (f := fun s w => if (s.window w).portIdx = p then examineHeads w s else s) (fun s w => by
    split
    · exact timed_examineHeads w s
    · exact .refl s) _ s

theorem timed_grantLoop (p : PortIdx) (n : Nat) (s : State) : Timed X X s (grantLoop p n s) := by
  induction n generalizing s with
  | zero => exact .refl s
  | succ n ih =>
    simp only [grantLoop]
    split
    · rename_i hf
      split
      · rename_i w hc
        rw [← port_of_claimingWindow hc] at hf
        exact (timed_release hf).trans ((timed_examineHeads ..).trans (ih _))
      · exact .refl s
    · exact .refl s

theorem timed_grantWindows (p : PortIdx) (s : State) : Timed X X s (grantWindows p s) := timed_grantLoop ..

theorem timed_grantAll (s : State) : Timed X X s (grantAll s) := timed_foldl (fun s p => timed_grantWindows p s) _ s

/-! ### The flush of a port, and trunk loss -/

theorem worksFor_foldl_toReplying (l : List EntryIdx) (st : Status) (s : State) (j : EntryIdx) (p : PortIdx) :
    ((l.foldl (fun s i => toReplying i st [] s) s).entry j).worksFor p = if j ∈ l then false else (s.entry j).worksFor p := by
  induction l generalizing s with
  | nil => rfl
  | cons i l ih =>
    rw [List.foldl_cons, ih, worksFor_toReplying]
    by_cases hl : j ∈ l <;> by_cases hj : j = i <;> simp [hl, hj]

/-- Answers to some entries leave the trunk. -/
theorem branchSide_foldl_toReplying (l : List EntryIdx) (st : Status) (s : State) :
    BranchSide s (l.foldl (fun s i => toReplying i st [] s) s) := by
  induction l generalizing s with
  | nil => exact .refl s
  | cons i l ih => exact (toReplying_branchSide i st [] s).trans (ih _)

/-- A port that is silenced has no timer, and its link end nothing due (R92, R105, R111). -/
theorem portTimes_silence (b : PortBlock) {st : PortState} (h : st.accepts = false) : PortTimes b (b.silence st) := by
  refine ⟨fun _ => ?_, fun _ => ?_⟩
  · rcases accepts_eq_false_iff.mp h with rfl | rfl <;> simp [PortBlock.timersFit, PortBlock.silence]
  · simp [PortBlock.linkFit, LinkEnd.fits, PortBlock.silence, LinkEnd.silence, once]

theorem timed_flushed {st : PortState} (h : st.accepts = false) (p : PortIdx) (s : State) : Timed X X s (flushed st p s) := by
  have side : BranchSide s (flushed st p s) :=
    BranchSide.trans (t := s.setPort p ((s.port p).silence st)) (by constructor <;> rfl) (branchSide_foldl_toReplying ..)
  have silent : (flushed st p s).port p = (s.port p).silence st := by rw [port_flushed, if_pos rfl]
  have notUp : ((flushed st p s).port p).state ≠ .up := by
    rw [silent]
    rintro rfl
    cases h
  refine (timed_open (housed_flushed st p s).placed (fun q hq => ?_) (by rw [silent]; exact portTimes_silence _ h) (fun h => ?_)
    (fun _ up => absurd up notUp) fun hs q hq j => ?_).close fun _ up => absurd up notUp
  · rw [port_flushed, if_neg (Ne.symm hq)]
  · rwa [State.trunkFit, side.trunk, side.trunkState]
  · rw [flushed, worksFor_foldl_toReplying]
    split
    · rename_i hj
      have works := worksFor_iff.mp ((mem_flushAnswers hs).mp hj)
      rw [eq_comm, ← Bool.not_eq_true, worksFor_iff]
      rcases works with place | place <;> rw [place] <;> simp [Ne.symm hq]
    · rfl

theorem timed_flush {st : PortState} (h : st.accepts = false) (p : PortIdx) (s : State) : Timed X X s (flush st p s) := by
  rw [flush_eq]
  split
  · exact timed_flushed h p s
  · exact (timed_flushed h p s).trans (timed_recordFault ..)

theorem timed_portDown {st : PortState} (h : st.accepts = false) (cause : Option FaultKind) (p : PortIdx) (s : State) :
    Timed X X s (portDown st cause p s) := by
  unfold portDown
  cases cause with
  | none => exact (timed_flush h p s).trans (timed_examinePort ..)
  | some k => exact (timed_recordFault ..).trans ((timed_flush h p _).trans (timed_examinePort ..))

/-- A port that fails is in DOWN, where its retry deadline stands (R92, R112). -/
theorem timed_portFail (cause : FaultKind) (p : PortIdx) (s : State) : Timed X X s (portFail cause p s) := by
  have down : ((portDown .down (some cause) p s).port p).state = .down := by
    show ((portDown .down none p (recordFault cause (.branch p) none none none none s)).port p).state = _
    rw [port_portDown]
    rfl
  have entered : Timed X X s (portDown .down (some cause) p s) := timed_portDown rfl (some cause) p s
  unfold portFail
  generalize portDown .down (some cause) p s = u at down entered
  exact entered.trans (timed_setLink fun ⟨resend, _, ack, credit, sent⟩ =>
    ⟨resend, fun _ => beq_iff_eq.mpr down, ack, credit, sent⟩)

/-- Every port is open. -/
def allOpen : PortIdx → Prop := fun _ => True

/-- The idleness of some ports is looked at again. -/
theorem timed_foldl_refreshIdle (ps : List PortIdx) (s : State) :
    Timed (fun p => X p ∨ p ∈ ps) X s (ps.foldl (fun s p => refreshIdle p s) s) := by
  induction ps generalizing s with
  | nil => exact (Timed.refl s).widen fun p hp => hp.elim id fun h => absurd h List.not_mem_nil
  | cons p ps ih =>
    refine Timed.trans (Timed.refreshed (X := fun q => X q ∨ q ∈ ps) ((Timed.refl s).widen fun q hq => ?_)) (ih _)
    rcases hq with hq | hq
    · exact .inl (.inl hq)
    · rcases List.mem_cons.mp hq with hq | hq
      · exact .inr hq
      · exact .inl (.inr hq)

/-- Without the entries and the READs of its queue every port is open (R37, R79). -/
theorem timed_dropReads (s : State) : Timed X allOpen s (dropReads (freeEntries s)) := by
  have port : ∀ p, (dropReads (freeEntries s)).port p =
      { s.port p with queue := (s.port p).queue.filter fun x => !x.body.isRead } := fun p => port_dropReads (freeEntries s) p
  refine ⟨(housed_dropReads s).placed, fun p => ?_, id, fun _ c => ⟨fun p => ?_, fun p => ?_, fun p hp => absurd trivial hp⟩⟩
  · rw [port]
    exact ⟨id, id⟩
  · rw [port]
    exact c.timers p
  · rw [port]
    exact c.interval p

/-- The record of a loss, and the retry deadline of the trunk in DOWN (R92, R130). -/
theorem timed_recordLoss {s : State} (down : s.trunkState = .down) (cause : FaultKind) (n : Nat) :
    Timed X X s (recordLoss cause n s) := by
  have emptied : Timed X X s { s with generalQueue := [], lines := mapVec EventLine.renotify s.lines } :=
    timed_of_ports {} (fun _ => rfl) id
  have recorded := emptied.trans (timed_recordFault (X := X) cause .trunk none none none (some (.one (BitVec.ofNat 16 n))) _)
  have still := (recordFault_branchSide cause .trunk none none none (some (.one (BitVec.ofNat 16 n)))
    { s with generalQueue := [], lines := mapVec EventLine.renotify s.lines }).trunkState.trans down
  unfold recordLoss
  dsimp only
  generalize recordFault cause .trunk none none none (some (.one (BitVec.ofNat 16 n)))
    { s with generalQueue := [], lines := mapVec EventLine.renotify s.lines } = u at recorded still
  refine recorded.trans (timed_of_ports {} (fun _ => rfl) fun ⟨resend, _, ack, credit, sent⟩ => ?_)
  exact ⟨resend, fun _ => beq_iff_eq.mpr still, ack, credit, sent⟩

/-- Trunk loss leaves the trunk in DOWN with its retry deadline, and looks at the idleness of every port (R113, R130). -/
theorem timed_trunkLoss (cause : FaultKind) (s : State) : Timed X X s (trunkLoss cause s) := by
  let silent : State := dropIngress { s with trunkState := .down, trunk := s.trunk.silence }
  have fallen : Timed X X s silent := timed_of_ports {} (fun _ => rfl) fun _ => by
    simp [silent, State.trunkFit, LinkEnd.fits, dropIngress, LinkEnd.silence, once]
  have lost : Timed X allOpen s (loseRequests s) := (fallen.trans (timed_dropReads silent)).trans (timed_grantAll _)
  have down : (loseRequests s).trunkState = .down := (loseRequests_branchSide s).trunkState
  unfold trunkLoss
  generalize loseRequests s = u at lost down
  have recorded : Timed allOpen allOpen u (recordLoss cause s.liveCount u) := timed_recordLoss down cause _
  refine (lost.trans recorded).trans (Timed.trans (Timed.widen (.refl _) fun p _ => ?_) (timed_foldl_refreshIdle _ _))
  exact .inr (List.mem_finRange p)

end

end Sys2Proof.Machine
end

section
/-! What the management unit and the decoder do to the timers (O55). -/

namespace Sys2Proof.Machine

-- The theorems are checked one after the other, which bounds the memory that the check takes.
set_option Elab.async false

/-! ### Window records, and the cleared router -/

section
variable {X Y : PortIdx → Prop}

/-- The whole list of a window ends (R20). -/
theorem timed_endList (w : WindowIdx) (st : Status) (s : State) : Timed X X s
    ((heldReads (s.holdList w)).foldl (fun s i => toReplying i st [] s) (s.setHoldList w [])) := by
  have side : BranchSide s ((heldReads (s.holdList w)).foldl (fun s i => toReplying i st [] s) (s.setHoldList w [])) :=
    BranchSide.trans (t := s.setHoldList w []) (by constructor <;> rfl) (branchSide_foldl_toReplying ..)
  refine timed_entries (housed_endList w st s).placed (fun p => port_foldl_toReplying ..) (fun hs p i => ?_) side.trunk
    side.trunkState
  rw [worksFor_foldl_toReplying]
  split
  · rename_i hi
    rw [worksFor_of_held hs hi]
  · rfl

theorem timed_endAllHeld (w : WindowIdx) (st : Status) (k : FaultKind) (s : State) : Timed X X s (endAllHeld w st k s) := by
  unfold endAllHeld
  simp only [foldl_endHeld]
  split
  · exact timed_endList w st s
  · exact (timed_endList w st s).trans (timed_recordFault ..)

theorem timed_applyWindow (w : WindowIdx) (r : WindowRecord) (s : State) : Timed X X s (applyWindow w r s) := by
  have written : Timed X X s (s.setWindow w r) :=
    timed_entries (housed_setWindow w r s).placed (fun _ => rfl) fun _ _ _ => rfl
  unfold applyWindow
  dsimp only
  split
  · split
    · exact written.trans ((timed_examineHeads ..).trans (timed_grantWindows ..))
    · exact written
    · exact written.trans (timed_endAllHeld ..)
  · exact written.trans (timed_endAllHeld ..)

theorem timed_writeWindow (w : WindowIdx) (data : List Byte) (a : HostAddr) (s : State) :
    Timed X X s (writeWindow w data a s) := by
  unfold writeWindow
  split
  · exact timed_applyWindow ..
  · exact timed_recordFault ..

/-- A port in OFF has no timer. -/
theorem portTimes_off (b : PortBlock) (signal : Bool) : PortTimes b (.off signal) :=
  ⟨fun _ => by simp [PortBlock.timersFit, PortBlock.off],
    fun _ => by simp [PortBlock.linkFit, LinkEnd.fits, PortBlock.off, LinkEnd.zero, once]⟩

/-- A state whose ports are all in OFF. -/
theorem timed_of_off {s t : State} (placed : s.placed → t.placed) (ports : ∀ p, ∃ signal, t.port p = .off signal)
    (trunk : s.trunkFit → t.trunkFit) : Timed X Y s t := by
  have notUp : ∀ p, (t.port p).state ≠ .up := fun p => by
    obtain ⟨signal, hp⟩ := ports p
    rw [hp]
    exact PortState.noConfusion
  have times : ∀ p, PortTimes (s.port p) (t.port p) := fun p => by
    obtain ⟨signal, hp⟩ := ports p
    rw [hp]
    exact portTimes_off ..
  exact ⟨placed, times, trunk, fun _ c => ⟨fun p => (times p).timers (c.timers p), fun p up => absurd up (notUp p),
    fun p _ up => absurd up (notUp p)⟩⟩

theorem timed_clearRouter (s : State) : Timed X X s (clearRouter s) :=
  timed_of_off (orderly_clearRouter s).housed.placed (fun p => ⟨_, port_clearRouter s p⟩) id

/-! ### Fields -/

theorem timed_withField {v : Option Nat} {f : Nat → State → State} (h : ∀ n s, Timed X X s (f n s)) (s : State) :
    Timed X X s (withField v f s) := by
  cases v with
  | none => exact .refl s
  | some n => exact h n s

theorem timed_writeControl (at' : Nat) (data : List Byte) (s : State) : Timed X X s (writeControl at' data s) := by
  unfold writeControl
  refine (timed_withField (fun _ _ => ?_) s).trans ((timed_withField (fun _ _ => ?_) _).trans
    ((timed_withField (fun _ _ => ?_) _).trans (timed_withField (fun _ u => ?_) _)))
  case refine_4 =>
    split
    · exact timed_clearRouter u
    · exact .refl u
  all_goals exact timed_of_ports {} (fun _ => rfl) id

theorem timed_clearCounters (at' : Nat) (data : List Byte) (base : Nat) (l : Link) (s : State) :
    Timed X X s (clearCounters at' data base l s) := by
  unfold clearCounters clearCounter
  refine (timed_withField (fun _ u => ?_) s).trans ((timed_withField (fun _ u => ?_) _).trans
    ((timed_withField (fun _ u => ?_) _).trans (timed_withField (fun _ u => ?_) _)))
  all_goals exact timed_counts (s := u)

/-! ### Branch ports -/

/-- A write of a port's items that have no part in its timers. -/
theorem portCalm_items {b c : PortBlock} (state : c.state = b.state) (link : c.link = b.link) (buffer : c.buffer = b.buffer)
    (doze : (c.answer, c.wake, c.idle, c.dozeReqDue, c.wakeDue, c.dozeRequested) =
      (b.answer, b.wake, b.idle, b.dozeReqDue, b.wakeDue, b.dozeRequested)) (interval : c.autoDoze = b.autoDoze) :
    PortCalm b c := by
  simp only [Prod.mk.injEq] at doze
  obtain ⟨answer, wake, idle, dozeReqDue, wakeDue, requested⟩ := doze
  refine ⟨⟨fun h => ?_, fun h => ?_⟩, fun up => ⟨state.symm.trans up, idle, interval, requested, buffer⟩⟩
  · rwa [PortBlock.timersFit, state, answer, wake, idle, dozeReqDue, wakeDue, requested]
  · rwa [PortBlock.linkFit, state, link]

theorem timed_setResult (p : PortIdx) (r : CommandResult) (s : State) : Timed X X s (setResult p r s) :=
  timed_setPort ⟨rfl, rfl, fun _ h => h⟩ (portCalm_items rfl rfl rfl rfl rfl)

theorem timed_writeEnable (p : PortIdx) (on : Bool) (s : State) : Timed X X s (writeEnable p on s) := by
  unfold writeEnable
  split
  · split
    · exact (timed_startTraining ..).trans (timed_grantWindows ..)
    · exact .refl s
  · split
    · exact .refl s
    · exact timed_portDown rfl none p s

theorem state_setResult (p : PortIdx) (r : CommandResult) (s : State) :
    ((setResult p r s).port p).state = (s.port p).state := by simp [setResult]

theorem timed_commandWake (p : PortIdx) (s : State) : Timed X X s (commandWake p s) := by
  unfold commandWake
  split
  · rename_i doze
    exact (timed_setResult p .accepted s).trans (timed_enterWaking (.inl ((state_setResult ..).trans doze)) true)
  · exact timed_setResult ..

theorem timed_commandReset (p : PortIdx) (s : State) : Timed X X s (commandReset p s) := by
  unfold commandReset
  split
  · exact timed_setResult ..
  · exact (timed_setResult p .accepted s).trans ((timed_portDown rfl none p _).trans
      ((timed_startTraining ..).trans (timed_grantWindows ..)))

end

/-- Where no port is open, a write of items that have a part in the idle deadline of a port leaves the deadline as it should
be. -/
theorem timed_setPort_closed {s : State} {p : PortIdx} {b : PortBlock} (steady : PortSteady (s.port p) b)
    (times : PortTimes (s.port p) b) (buffer : b.buffer = (s.port p).buffer) (state : b.state = (s.port p).state)
    (fit : b.state = .up → (s.port p).idleFit (s.portIdle p) → b.idleFit (s.portIdle p)) :
    Timed allClosed allClosed s (s.setPort p b) := by
  have rest : (s.setPort p b).portIdle p = s.portIdle p :=
    portIdle_congr (by rw [State.port_setPort_self, steady.queue]) (by rw [State.port_setPort_self, buffer]) fun _ => rfl
  refine (timed_setPort_open steady times fun c up some' => ?_).close fun c up => ?_
  · exact ((fit up (c.idle p id (state.symm.trans up))).1.mp some').2
  · rw [State.port_setPort_self] at up ⊢
    rw [rest]
    exact fit up (c.idle p id (state.symm.trans up))

/-- DOZE: an idle port in UP enters DOZE_WAIT; one that is not idle has doze requested (R106, R114). -/
theorem timed_commandDoze (p : PortIdx) (s : State) : Timed allClosed allClosed s (commandDoze p s) := by
  unfold commandDoze
  split
  · rename_i up
    have up : ((setResult p .accepted s).port p).state = .up := (state_setResult ..).trans up
    dsimp only
    refine (timed_setResult p .accepted s).trans ?_
    generalize setResult p .accepted s = u at up
    split
    · exact timed_enterDozeWait up
    · rename_i busy
      refine timed_setPort_closed ⟨rfl, rfl, fun _ h => h⟩ ⟨fun h => ?_, id⟩ rfl rfl fun _ h => ⟨h.1, fun _ => ?_⟩
      · obtain ⟨answer, wake, idle, req, due, _⟩ := h
        exact ⟨answer, wake, idle, req, due, fun _ => up⟩
      · simpa using busy
  · exact timed_setResult ..

/-- The interval of a port in UP that is idle sets its idle deadline anew (R113). -/
theorem timed_writeInterval (p : PortIdx) (v : BitVec 16) (s : State) : Timed allClosed allClosed s (writeInterval p v s) := by
  rw [writeInterval_eq]
  refine timed_setPort_closed ⟨rfl, rfl, fun _ h => h⟩ ⟨fun h => ?_, id⟩ rfl rfl fun up h => ?_
  · obtain ⟨answer, wake, idle, req, due, requested⟩ := h
    refine ⟨answer, wake, fun some' => ?_, req, due, requested⟩
    by_cases rest : (s.port p).state = .up ∧ s.portIdle p = true
    · exact rest.1
    · exact idle (by simpa [rest] using some')
  · refine ⟨?_, h.2⟩
    cases rest : s.portIdle p with
    | true =>
      have up : (s.port p).state = .up := up
      by_cases zero : v = 0 <;> simp [up, zero]
    | false =>
      have none' : (s.port p).idle.isSome ≠ true := fun some' => by
        have := (h.1.mp some').1
        rw [rest] at this
        cases this
      simpa using none'

theorem timed_portCommand (p : PortIdx) (code : Nat) (s : State) : Timed allClosed allClosed s (portCommand p code s) := by
  unfold portCommand
  split
  · exact timed_commandDoze p s
  · split
    · exact timed_commandWake p s
    · split
      · exact timed_commandReset p s
      · exact .refl s

theorem timed_writePort (p : PortIdx) (at' : Nat) (data : List Byte) (s : State) :
    Timed allClosed allClosed s (writePort p at' data s) := by
  unfold writePort
  refine (timed_withField (fun _ _ => timed_writeEnable ..) s).trans ((timed_withField (fun _ _ => ?_) _).trans
    ((timed_withField (fun _ _ => timed_writeInterval ..) _).trans ((timed_withField (fun _ _ => ?_) _).trans
      ((timed_withField (fun _ _ => ?_) _).trans ((timed_clearCounters ..).trans ((timed_withField (fun _ _ => ?_) _).trans
        (timed_withField (fun _ _ => timed_portCommand ..) _)))))))
  all_goals exact timed_setPort ⟨rfl, rfl, fun _ h => h⟩ (portCalm_items rfl rfl rfl rfl rfl)

/-! ### A management request -/

section
variable {X : PortIdx → Prop}

theorem timed_writeLine (i : LineIdx) (at' : Nat) (data : List Byte) (s : State) : Timed X X s (writeLine i at' data s) := by
  unfold writeLine
  refine (timed_withField (fun _ _ => ?_) s).trans ((timed_withField (fun _ _ => ?_) _).trans ((timed_serveClaims _).trans
    ((timed_withField (fun _ _ => ?_) _).trans (timed_serveClaims _))))
  all_goals exact timed_of_ports {} (fun _ => rfl) id

theorem timed_writeLogControl (at' : Nat) (data : List Byte) (s : State) : Timed X X s (writeLogControl at' data s) := by
  unfold writeLogControl
  refine (timed_withField (fun _ _ => ?_) s).trans (timed_withField (fun _ u => ?_) _)
  · exact timed_of_ports {} (fun _ => rfl) id
  · split
    · exact timed_of_ports {} (fun _ => rfl) id
    · exact .refl u

end

/-- What the management unit does with a WRITE (R172 to R174). -/
theorem timed_manageWrite (a : HostAddr) (data : List Byte) (s : State) :
    Timed allClosed allClosed s (manageWrite a data s) := by
  unfold manageWrite
  simp only
  split
  · rename_i r at' _
    split
    · cases r with
      | window w => exact timed_writeWindow ..
      | control => exact timed_writeControl ..
      | port p => exact timed_writePort ..
      | trunk => exact timed_clearCounters ..
      | line i => exact timed_writeLine ..
      | logControl => exact timed_writeLogControl ..
      | identity | routerTime | view i | logHead => exact .refl s
    · exact timed_recordFault ..
  · exact timed_recordFault ..

section
variable {X : PortIdx → Prop}

theorem timed_manageRead (t : BitVec 6) (a : HostAddr) (n : Nat) (s : State) : Timed X X s (manageRead t a n s) := by
  have placed : ∀ f, Timed X X s (placeGeneral f { s with arbLast := .decoder }) := fun _ => timed_of_ports {} (fun _ => rfl) id
  unfold manageRead
  simp only
  split
  · exact placed _
  · exact (placed _).trans (timed_recordFault ..)

/-! ### The decoder -/

theorem timed_popHead (f : HostFrame) (s : State) : Timed X X s (popHead f s) :=
  Timed.trans (t := { s with ingress := s.ingress.tail, decoder := .clear }) (timed_of_ports {} (fun _ => rfl) id)
    (timed_consume ..)

/-- An entry that is allocated where it was FREE, and works for no port. -/
theorem worksFor_setEntry_idle {s : State} {i : EntryIdx} {e : Entry} (free : (s.entry i).live = none) {p : PortIdx}
    (idle : e.worksFor p = false) (j : EntryIdx) : ((s.setEntry i e).entry j).worksFor p = (s.entry j).worksFor p := by
  rw [State.entry_setEntry]
  split
  · rename_i hj
    rw [← hj, worksFor_of_free free, idle]
  · rfl

theorem timed_takeFailed (f : HostFrame) (k : FaultKind) (st : Status) (w : Option WindowIdx) (s : State) :
    Timed X X s (takeFailed f k st w s) := by
  unfold takeFailed
  refine Timed.trans ?_ (timed_recordFault ..)
  split
  · cases hi : s.freeEntry with
    | none => simp only [allocateFree, hi]; exact .refl s
    | some i =>
      rw [allocateFree_eq hi]
      have free := freeEntry_free hi
      refine timed_entries (fun hs => placed_allocate (x := .lane) hs free rfl rfl (fun _ => rfl) fun y => ?_) (fun _ => rfl)
        fun _ p j => worksFor_setEntry_idle free rfl j
      cases y <;> rfl
  · exact .refl s

theorem timed_takeHold {f : HostFrame} {w : WindowIdx} {s : State} (h : s.windowState w = .hold ∨ s.windowState w = .drain) :
    Timed X X s (takeHold f w s) := by
  have placed := (orderly_takeHold (f := f) h).housed.placed
  unfold takeHold at placed ⊢
  split
  · rename_i t hb
    simp only [hb] at placed
    cases hi : s.freeEntry with
    | none => simp only [allocateFree, hi]; exact .refl s
    | some i =>
      rw [allocateFree_eq hi] at placed ⊢
      exact timed_entries placed (fun _ => rfl) fun _ p j => worksFor_setEntry_idle (freeEntry_free hi) rfl j
  · rename_i d hb
    simp only [hb] at placed
    exact timed_entries placed (fun _ => rfl) fun _ _ _ => rfl

theorem timed_takeQueue {f : HostFrame} {w : WindowIdx} {s : State} (h : s.egressFree (s.window w).portIdx = true) :
    Timed X X s (takeQueue f w s) := by
  have placed := (orderly_takeQueue (f := f) h).housed.placed
  unfold takeQueue at placed ⊢
  dsimp only at placed ⊢
  split
  · rename_i t hb
    simp only [hb] at placed
    cases hi : s.freeEntry with
    | none => simp only [allocateFree, hi]; exact .refl s
    | some i =>
      rw [allocateFree_eq hi] at placed ⊢
      refine timed_placeEgress placed (fun _ => rfl) fun _ k hk j => worksFor_setEntry_idle (freeEntry_free hi) ?_ j
      exact beq_eq_false_iff_ne.mpr (Ne.symm hk)
  · rename_i d hb
    simp only [hb] at placed
    exact timed_placeEgress placed (fun _ => rfl) fun _ _ _ _ => rfl

end

theorem timed_takeFrame {s : State} {f : HostFrame} {d : Fate} (hc : s.canTake f d = true)
    (hw : ∀ w, d = .toHold w → s.windowState w = .hold ∨ s.windowState w = .drain) :
    Timed allClosed allClosed s (takeFrame f d s) := by
  refine (timed_popHead f s).trans ?_
  show Timed allClosed allClosed (popHead f s) (takeFate f d (popHead f s))
  cases d with
  | reuse => exact timed_recordFault ..
  | failed k st w => exact timed_takeFailed ..
  | management =>
    simp only [takeFate]
    split
    · exact timed_manageRead ..
    · exact timed_manageWrite ..
  | toHold w => exact timed_takeHold (s := popHead f s) (hw w rfl)
  | toQueue w =>
    simp only [State.canTake, Bool.and_eq_true] at hc
    exact timed_takeQueue (s := popHead f s) hc.2

/-- The decoder's run of frames (R41, R42). -/
theorem timed_decodeLoop (n : Nat) (fresh : Bool) (s : State) : Timed allClosed allClosed s (decodeLoop n fresh s) := by
  induction n generalizing fresh s with
  | zero => exact timed_serveClaims s
  | succ n ih =>
    simp only [decodeLoop]
    split
    · exact timed_serveClaims s
    · rename_i f _ _
      have claimed := unmoved_claimGeneral f (s.fate f) s
      have served : Timed allClosed allClosed s (claimGeneral f (s.fate f) s) := by
        unfold claimGeneral
        split
        · exact Timed.trans (t := { s with decoder := { s.decoder with claim := .general } })
            (timed_of_ports {} (fun _ => rfl) id) (timed_serveClaims _)
        · exact .refl s
      refine served.trans ?_
      split
      · rename_i hc
        refine (timed_takeFrame hc fun w hw => ?_).trans (ih ..)
        rw [windowState_congr (claimed.window w) (congrArg List.head? (claimed.holdList w))]
        exact windowState_of_toHold hw
      · have waits : ∀ u, Timed allClosed allClosed u (waitHead fresh f (s.fate f) u) := fun _ =>
          timed_of_ports {} (fun _ => rfl) id
        exact (waits _).trans (timed_serveClaims _)

theorem timed_decodeRun (fresh : Bool) (s : State) : Timed allClosed allClosed s (decodeRun fresh s) := timed_decodeLoop ..

/-- The end of a happening (R53, R141). -/
theorem timed_settle (s : State) : Timed allClosed allClosed s (settle s) := (timed_serveClaims s).trans (timed_decodeRun ..)

theorem timed_enqueueTrunk (f : HostFrame) (s : State) : Timed allClosed allClosed s (enqueueTrunk f s) := by
  have joined : Timed allClosed allClosed s { s with ingress := s.ingress ++ [f] } := timed_of_ports {} (fun _ => rfl) id
  unfold enqueueTrunk
  simp only
  split
  · exact joined.trans (timed_decodeRun ..)
  · exact joined

end Sys2Proof.Machine
end

section
/-! Every command keeps the timers in their states, and the idle deadlines as they should be (O55). -/

namespace Sys2Proof.Machine

-- The theorems are checked one after the other, which bounds the memory that the check takes.
set_option Elab.async false

/-- A command that acts with POR_N high alone (R184). -/
theorem timed_whenPowered {X : PortIdx → Prop} {f : State → State} {s : State} (h : Timed X X s (f s)) :
    Timed X X s (whenPowered f s) := by
  unfold whenPowered
  split
  · exact h
  · exact .refl s

/-! ### Deadlines -/

theorem timed_resendReached (l : Link) (s : State) : Timed allClosed allClosed s (resendReached l s) := by
  unfold resendReached
  simp only
  split
  · rename_i h
    rw [Bool.and_eq_true] at h
    split
    · rename_i few
      exact timed_dueSync h.1 few
    · cases l with
      | trunk => exact (timed_trunkLoss ..).trans (timed_settle _)
      | branch p => exact (timed_portFail ..).trans (timed_settle _)
  · exact .refl s

theorem timed_retryReached (l : Link) (s : State) : Timed allClosed allClosed s (retryReached l s) := by
  unfold retryReached
  split
  · cases l with
    | trunk => exact timed_startTraining ..
    | branch p => exact (timed_startTraining ..).trans ((timed_grantWindows p _).trans (timed_settle _))
  · exact .refl s

section
variable {X : PortIdx → Prop}

/-- An answer to a READ that works for no port. -/
theorem timed_toReplying {s t : State} {i : EntryIdx} {st : Status} {data : List Byte}
    (placed : s.placed → (toReplying i st data t).placed)
    (ports : ∀ p, t.port p = s.port p) (entries : ∀ j, t.entry j = s.entry j) (idle : ∀ p, (s.entry i).worksFor p = false)
    (trunk : t.trunk = s.trunk := by rfl) (state : t.trunkState = s.trunkState := by rfl) :
    Timed X X s (toReplying i st data t) := by
  have side := toReplying_branchSide i st data t
  refine timed_entries placed (fun p => (port_toReplying ..).trans (ports p)) (fun _ p j => ?_) (side.trunk.trans trunk)
    (side.trunkState.trans state)
  rw [worksFor_toReplying, entries]
  split
  · rename_i hj
    rw [hj, idle]
  · rfl

/-- An answer to a READ of a port leaves that port open. -/
theorem timed_toReplying_open {s t : State} {p : PortIdx} {i : EntryIdx} {st : Status} {data : List Byte}
    (placed : s.placed → (toReplying i st data t).placed) (others : ∀ q, q ≠ p → t.port q = s.port q)
    (times : PortTimes (s.port p) (t.port p))
    (interval : Clocked X s → (t.port p).state = .up → (t.port p).idle.isSome = true → (t.port p).autoDoze ≠ 0)
    (entries : ∀ j, t.entry j = s.entry j) (idle : ∀ q, q ≠ p → (s.entry i).worksFor q = false)
    (trunk : t.trunk = s.trunk := by rfl) (state : t.trunkState = s.trunkState := by rfl) :
    Timed X (alsoOpen X p) s (toReplying i st data t) := by
  have side := toReplying_branchSide i st data t
  refine timed_open placed (fun q hq => (port_toReplying ..).trans (others q hq)) (by rwa [port_toReplying]) (fun h => ?_)
    (by rwa [port_toReplying]) (fun _ q hq j => ?_)
  · rwa [State.trunkFit, side.trunk, side.trunkState, trunk, state]
  · rw [worksFor_toReplying, entries]
    split
    · rename_i hj
      rw [hj, idle q hq]
    · rfl

theorem worksFor_eq_false {e : Entry} {p : PortIdx} (h : e.place ≠ some (.queued p) ∧ e.place ≠ some (.sent p)) :
    e.worksFor p = false := by
  rw [← Bool.not_eq_true, worksFor_iff]
  exact not_or.mpr h

/-- An entry in SENT is answered: its port may become idle (R69, R113). -/
theorem timed_answerSent {s : State} {i : EntryIdx} {v : Live} {r : Route} (hv : (s.entry i).live = some v)
    (hst : v.stage = .sent r) (st : Status) (data : List Byte) : Timed X (alsoOpen X r.port) s (toReplying i st data s) := by
  refine timed_toReplying_open (orderly_answerSent hv ⟨r, hst⟩ st data).housed.placed (fun _ _ => rfl) (.refl _)
    (fun c => c.interval _) (fun _ => rfl) fun q hq => worksFor_eq_false ?_
  have place : (s.entry i).place = some (.sent r.port) := by rw [place_of_live hv, Live.place, hst]
  rw [place]
  simp [Ne.symm hq]

/-- A READ in HELD expires, its request removed from its list, if it stands in one (R36, R72). -/
theorem timed_expireHeld {s : State} {i : EntryIdx} {v : Live} (hv : (s.entry i).live = some v) (hst : v.stage = .held) :
    (∀ w, v.window = some w → Timed X X s (expire i v (removeHeld w i s))) ∧
    (v.window = none → Timed X X s (expire i v s)) := by
  have idle : ∀ p, (s.entry i).worksFor p = false := fun p => worksFor_eq_false <| by
    rw [place_of_live hv, Live.place, hst]
    cases v.window <;> simp
  refine ⟨fun w hw => ?_, fun hw => ?_⟩
  · have place : (s.entry i).place = some (.held w) := by rw [place_of_live hv, Live.place, hst, hw]; rfl
    refine Timed.trans (timed_toReplying (fun hs => (detached_removeHeld hs place).placed_toReplying hs .expired [])
      (fun _ => rfl) (fun _ => rfl) idle) (timed_recordFault ..)
  · have nowhere : (s.entry i).place = none := by rw [place_of_live hv, Live.place, hst, hw]; rfl
    refine Timed.trans (timed_toReplying (fun hs => ?_) (fun _ => rfl) (fun _ => rfl) idle) (timed_recordFault ..)
    exact placed_toReplying (answerable_of_place hs (.inl nowhere) ⟨v, hv, by rw [hst]; rfl⟩) (fun j _ => placed_iff.mp hs j)
      .expired []

/-- A READ in QUEUED expires, its request removed from its queue: the port may become idle (R72, R108, R113). -/
theorem timed_expireQueued {s : State} {i : EntryIdx} {v : Live} {r : Route} (hv : (s.entry i).live = some v)
    (hst : v.stage = .queued r) : Timed X (alsoOpen X r.port) s (expire i v (removeQueued r.port i s)) := by
  have place : (s.entry i).place = some (.queued r.port) := by rw [place_of_live hv, Live.place, hst]
  have removed : (removeQueued r.port i s).port r.port =
      { s.port r.port with queue := (s.port r.port).queue.filter fun q => q.body ≠ .read i } := State.port_setPort_self ..
  refine Timed.trans (timed_toReplying_open (fun hs => (detached_removeQueued hs place).placed_toReplying hs .expired [])
    (fun q hq => State.port_setPort_ne _ _ _ _ (Ne.symm hq)) (by rw [removed]; exact ⟨id, id⟩)
    (fun c => by rw [removed]; exact c.interval _) (fun _ => rfl) fun q hq => worksFor_eq_false ?_) (timed_recordFault ..)
  rw [place]
  simp [Ne.symm hq]

end

theorem timed_ticketReached (i : EntryIdx) (s : State) : Timed allClosed allClosed s (ticketReached i s) := by
  unfold ticketReached
  split
  · exact .refl s
  · rename_i v hv
    split
    · split
      · rename_i hst
        split
        · rename_i w hw
          exact ((timed_expireHeld hv hst).1 w hw).trans ((timed_examineHeads ..).trans ((timed_grantWindows ..).trans
            (timed_settle _)))
        · rename_i hw
          exact ((timed_expireHeld hv hst).2 hw).trans (timed_settle _)
      · rename_i r hst
        exact (((timed_expireQueued hv hst).trans (timed_grantWindows ..)).refreshed).trans (timed_settle _)
      · rename_i r hst
        exact (((timed_answerSent hv hst .expired []).trans (timed_recordFault ..)).refreshed).trans (timed_settle _)
      · exact .refl s
    · exact .refl s

theorem timed_headWaitReached (s : State) : Timed allClosed allClosed s (headWaitReached s) := by
  unfold headWaitReached
  split
  · exact .refl s
  · split
    · exact ((timed_popHead ..).trans (timed_recordFault ..)).trans (timed_decodeRun ..)
    · exact .refl s

section
variable {X : PortIdx → Prop}

theorem timed_answerReached (p : PortIdx) (s : State) : Timed X X s (answerReached p s) := by
  unfold answerReached
  simp only
  split
  · rename_i h
    have reopened : Timed X (alsoOpen X p) s (s.setPort p { s.port p with
        state := .up, answer := none, dozeReqDue := false, dozeRequested := false }) := by
      refine timed_setPort_open (portSteady_of_accepts (by rw [h.1]; rfl) rfl rfl) ⟨fun fit => ?_, fun fit => ?_⟩
        fun c _ some' => ?_
      · have doze := h.1
        simp_all [PortBlock.timersFit]
      · rw [PortBlock.linkFit, h.1] at fit
        exact fit
      · obtain ⟨_, _, idle, _⟩ := c.timers p
        have up := (h.1).symm.trans (idle some')
        cases up
    exact (reopened.trans (timed_recordFault ..)).refreshed
  · exact .refl s

theorem timed_idleReached (p : PortIdx) (s : State) : Timed X X s (idleReached p s) := by
  unfold idleReached
  simp only
  split
  · rename_i h; exact timed_enterDozeWait h.1
  · exact .refl s

end

theorem timed_wakeReached (p : PortIdx) (s : State) : Timed allClosed allClosed s (wakeReached p s) := by
  unfold wakeReached
  simp only
  split
  · exact (timed_portFail ..).trans (timed_settle _)
  · exact .refl s

end Sys2Proof.Machine
end

section
/-! Every command keeps the timers in their states, and the idle deadlines as they should be (O55): frames that arrive, signals,
power, transmissions, and the step. -/

namespace Sys2Proof.Machine

-- The theorems are checked one after the other, which bounds the memory that the check takes.
set_option Elab.async false

/-! ### Link frames -/

section
variable {X : PortIdx → Prop}

theorem linkDown_of_rxPhase {s : State} {l : Link} (h : s.rxPhase l ≠ .deaf) : s.linkDown l = false := by
  cases l with
  | trunk => cases hs : s.trunkState <;> simp_all [State.rxPhase, State.linkDown]
  | branch p => cases hs : (s.port p).state <;> simp_all [State.rxPhase, State.linkDown]

/-- A branch that hands frames on is in UP or DOZE_WAIT (R97, R102). -/
theorem state_of_live {s : State} {p : PortIdx} (h : s.rxPhase (.branch p) = .live) :
    (s.port p).state = .up ∨ (s.port p).state = .dozeWait := by
  simpa [State.linkLive] using (linkLive_of_rxPhase_live h).1

theorem state_of_doze {s : State} {p : PortIdx} (h : s.rxPhase (.branch p) = .doze) : (s.port p).state = .doze := by
  unfold State.rxPhase at h
  split at h
  · cases hs : (s.port p).state <;> simp only [hs] at h <;> cases h
    rfl
  · cases h

theorem rxPhase_countIn (l : Link) (s : State) : (s.modLink l LinkEnd.countIn).rxPhase l = s.rxPhase l := by
  cases l <;> simp [State.rxPhase, LinkEnd.countIn]

/-- A frame that arrives keeps the timers where what its link does with it keeps them. -/
theorem timed_receive {training live doze waking : State → State} {l : Link} (size : Nat)
    (ht : ∀ u, u.rxPhase l = .training → Timed X X u (training u)) (hl : ∀ u, u.rxPhase l = .live → Timed X X u (live u))
    (hd : ∀ u, u.rxPhase l = .doze → Timed X X u (doze u)) (hw : ∀ u, u.rxPhase l = .waking → Timed X X u (waking u)) (s : State) :
    Timed X X s (receive l size training live doze waking s) := by
  have counted : Timed X X s (s.modLink l LinkEnd.countIn) := timed_counts
  have phase := rxPhase_countIn l s
  unfold receive
  split
  · simp only
    split
    · exact .refl s
    · rename_i h; exact counted.trans (ht _ (phase.trans h))
    · rename_i h; exact counted.trans (hl _ (phase.trans h))
    · rename_i h; exact counted.trans (hd _ (phase.trans h))
    · rename_i h; exact counted.trans (hw _ (phase.trans h))
  · exact timed_crcFail l s

/-- A port enters UP with a link end that fits UP, and its idleness is looked at (R88, R89, R113, R118, R120). -/
theorem timed_portToUp {s : State} {p : PortIdx} {f : LinkEnd → LinkEnd} (hs : s.rxPhase (.branch p) ≠ .deaf)
    (fit : (s.port p).linkFit → (f (s.port p).link).fits false false true) :
    Timed X X s (afterUp (.branch p) ((setUp (.branch p) s).modLink (.branch p) f)) := by
  have accepts : (s.port p).state.accepts = true := linkOpen_of_rxPhase hs
  have entered : Timed X (alsoOpen X p) s (s.setPort p { s.port p with
      state := .up, answer := none, wake := none, dozeReqDue := false, wakeDue := false, link := f (s.port p).link }) := by
    refine timed_setPort_open (portSteady_of_accepts accepts rfl rfl) ⟨fun h => ?_, fit⟩ fun c _ some' => ?_
    · simp [PortBlock.timersFit]
    · obtain ⟨_, _, idle, _⟩ := c.timers p
      exact c.interval p (idle some') some'
  have same : (setUp (.branch p) s).modLink (.branch p) f = s.setPort p { s.port p with
      state := .up, answer := none, wake := none, dozeReqDue := false, wakeDue := false, link := f (s.port p).link } := by
    simp [setUp]
  rw [same]
  exact entered.refreshed

end

/-- A link enters UP with a link end that fits UP. -/
theorem timed_toUp {l : Link} {s : State} {f : LinkEnd → LinkEnd} (hs : s.rxPhase l ≠ .deaf)
    (fit : s.linkFit l (s.linkEnd l) → (f (s.linkEnd l)).fits false false true) :
    Timed allClosed allClosed s (afterUp l ((setUp l s).modLink l f)) := by
  cases l with
  | trunk =>
    have entered : Timed allClosed allClosed s { s with trunkState := .up, trunk := f s.trunk } :=
      timed_of_ports {} (fun _ => rfl) fit
    exact entered.trans (timed_settle _)
  | branch p => exact timed_portToUp hs fit

/-- A link end that fitted an open link fits UP without what its training gave it (R88, R89). -/
theorem fits_up {s : State} {l : Link} (hs : s.rxPhase l ≠ .deaf) {e e' : LinkEnd} (h : s.linkFit l e) (retry : e'.retry = e.retry)
    (resend : e'.resend = none) (syncDue : e'.syncDue = false) (syncsSent : e'.syncsSent = 0) : e'.fits false false true := by
  obtain ⟨_, down, _⟩ := h
  rw [linkDown_of_rxPhase hs, ← retry] at down
  rw [LinkEnd.fits, resend, syncDue, syncsSent]
  exact ⟨by simp, down, fun _ => rfl, fun _ => ⟨rfl, rfl⟩, by decide⟩

theorem timed_syncToUp {l : Link} {s : State} (hs : s.rxPhase l ≠ .deaf) (a b : Byte) :
    Timed allClosed allClosed s (syncToUp l a b s) := timed_toUp hs fun h => fits_up hs h rfl rfl rfl rfl

theorem timed_syncAckToUp {l : Link} {s : State} (hs : s.rxPhase l ≠ .deaf) (a b : Byte) :
    Timed allClosed allClosed s (syncAckToUp l a b s) := timed_toUp hs fun h => fits_up hs h rfl rfl rfl rfl

/-- A SYNC in UP makes a SYNC-ACK due there (R90). -/
theorem timed_syncInUp {X : PortIdx → Prop} {l : Link} {s : State} (live : s.linkLive l = true) (a b : Byte) :
    Timed X X s (s.modLink l fun e => { e.adopt a b with syncAckDue := true }) :=
  timed_setLink fun ⟨resend, retry, _, credit, sent⟩ => ⟨resend, retry, fun _ => live, credit, sent⟩

theorem timed_syncWhenLive {l : Link} {s : State} (hs : s.rxPhase l = .live) (a b : Byte) :
    Timed allClosed allClosed s (syncWhenLive l a b s) := by
  have live := (linkLive_of_rxPhase_live hs).1
  unfold syncWhenLive
  split
  · exact timed_syncInUp live a b
  · split
    · exact timed_syncInUp live a b
    · exact timed_syncToUp (by rw [hs]; decide) a b

theorem timed_receiveSync (l : Link) (size : Nat) (a b : Byte) (s : State) :
    Timed allClosed allClosed s (receiveSync l size a b s) := by
  unfold receiveSync
  refine timed_receive size (fun u h => ?_) (fun u h => ?_) (fun u h => ?_) (fun u h => ?_) s <;> split
  · exact timed_syncToUp (by rw [h]; decide) a b
  · exact timed_discardFrame ..
  · exact timed_syncWhenLive h a b
  · exact timed_frameInvalid ..
  · exact timed_syncToUp (by rw [h]; decide) a b
  · exact timed_frameInvalid ..
  · exact timed_syncToUp (by rw [h]; decide) a b
  · exact timed_discardFrame ..

theorem timed_receiveSyncAck (l : Link) (size : Nat) (a b : Byte) (s : State) :
    Timed allClosed allClosed s (receiveSyncAck l size a b s) := by
  unfold receiveSyncAck
  refine timed_receive size (fun u h => ?_) (fun u _ => ?_) (fun u _ => timed_frameInvalid ..)
    (fun u _ => timed_discardFrame ..) s <;> split
  · exact timed_syncAckToUp (by rw [h]; decide) a b
  · exact timed_discardFrame ..
  · exact .refl u
  · exact timed_frameInvalid ..

section
variable {X : PortIdx → Prop}

theorem timed_receiveCredit (l : Link) (size : Nat) (a b : Byte) (s : State) : Timed X X s (receiveCredit l size a b s) := by
  unfold receiveCredit
  refine timed_receive size (fun u _ => timed_discardFrame ..) (fun u _ => ?_) (fun u _ => timed_frameInvalid ..)
    (fun u _ => timed_discardFrame ..) s
  split
  · cases l <;> exact timed_counts
  · exact timed_frameInvalid ..

theorem timed_trunkReset (s : State) : Timed X X s (trunkReset s) := by
  have based : Timed X X (clearRouter s) (dropIngress { clearRouter s with apertureBase := Config.strapDefault s.strapId }) :=
    timed_of_ports {} (fun _ => rfl) id
  exact ((timed_clearRouter s).trans based).trans (timed_startTraining ..)

end

theorem timed_receiveRequest (r : TrunkRequest) (s : State) : Timed allClosed allClosed s (receiveRequest r s) := by
  refine timed_receive _ (fun u _ => timed_discardFrame ..) (fun u _ => ?_) (fun u _ => .refl u) (fun u _ => .refl u) s
  unfold acceptRequest
  split
  · split
    · exact timed_enqueueTrunk ..
    · exact timed_creditOverrun ..
  · exact timed_frameInvalid ..

/-! ### Module frames -/

theorem timed_bufferWrite {p : PortIdx} {s : State} (h : s.linkOpen (.branch p)) (w : UpWrite) :
    Timed allClosed allClosed s (bufferWrite p w s) := by
  have buffered : Timed allClosed (alsoOpen allClosed p) s
      (s.setPort p { s.port p with buffer := (s.port p).buffer ++ [w] }) :=
    timed_setPort_open (portSteady_of_accepts h h rfl) ⟨id, id⟩ fun c => c.interval p
  exact buffered.refreshed.trans (timed_settle _)

theorem timed_acceptUpWrite {p : PortIdx} {s : State} (h : s.linkOpen (.branch p)) (n : Nat) (a : ModuleAddr)
    (data : List Byte) : Timed allClosed allClosed s (acceptUpWrite p n a data s) := by
  have refused : ∀ k, Timed allClosed allClosed s (refuseUpWrite k p n a s) := fun k =>
    (timed_consume ..).trans (timed_recordFault ..)
  unfold acceptUpWrite
  simp only
  split
  · exact timed_creditOverrun ..
  · split
    · exact refused _
    · split
      · exact timed_bufferWrite h _
      · exact refused _

section
variable {X : PortIdx → Prop}

/-- The entry that a RESULT matches is in SENT on the port where it arrives (R69). -/
theorem route_of_matchResult {s : State} {p : PortIdx} {ticket : Byte} {i : EntryIdx} {v : Live}
    (h : s.matchResult p ticket = some (i, v)) : ∃ r, v.stage = .sent r ∧ r.port = p := by
  unfold State.matchResult at h
  simp only at h
  split at h
  · split at h
    · rename_i r hr
      split at h
      · rename_i same
        obtain ⟨_, rfl⟩ := Prod.mk.inj (Option.some.inj h)
        exact ⟨r, hr, same.1⟩
      · cases h
    · cases h
  · cases h

theorem timed_matchedResult {s : State} {i : EntryIdx} {v : Live} {r : Route} (hv : (s.entry i).live = some v)
    (hst : v.stage = .sent r) (status : BitVec 3) (count : Byte) (data : List Byte) :
    Timed X (alsoOpen X r.port) s (matchedResult i v status count data s) := by
  unfold matchedResult
  split
  · split
    · exact timed_answerSent hv hst ..
    · exact (timed_answerSent hv hst ..).trans (timed_recordFault ..)
  · exact timed_answerSent hv hst ..

theorem timed_staleResult (p : PortIdx) (ticket : Byte) (s : State) : Timed X X s (staleResult p ticket s) := by
  have counted : Timed X X s (s.setPort p { s.port p with stale := (s.port p).stale + 1 }) :=
    timed_setPort ⟨rfl, rfl, fun _ h => h⟩ (portCalm_items rfl rfl rfl rfl rfl)
  exact counted.trans (timed_recordFault ..)

theorem timed_acceptResult (p : PortIdx) (size : Nat) (status : BitVec 3) (ticket count : Byte) (data : List Byte)
    (s : State) : Timed X X s (acceptResult p size status ticket count data s) := by
  unfold acceptResult
  split
  · refine (timed_consume (.branch p) .b s).trans ?_
    simp only
    split
    · rename_i i v hm
      obtain ⟨r, hst, rfl⟩ := route_of_matchResult hm
      exact (timed_matchedResult (sent_of_matchResult hm).1 hst ..).refreshed
    · exact timed_staleResult ..
  · exact timed_frameInvalid ..

/-- A valid DOZE-ACK ends DOZE_WAIT, or makes a WAKE due in UP (R116). -/
theorem timed_acceptDozeAck {p : PortIdx} {s : State} (h : (s.port p).state = .up ∨ (s.port p).state = .dozeWait) :
    Timed X X s (acceptDozeAck p s) := by
  unfold acceptDozeAck
  simp only
  split
  · rename_i up
    refine timed_setPort ⟨rfl, rfl, fun _ h => h⟩ ⟨⟨fun fit => ?_, id⟩, fun up => ⟨up, rfl, rfl, rfl, rfl⟩⟩
    obtain ⟨answer, wake, idle, req, _, requested⟩ := fit
    exact ⟨answer, wake, idle, req, fun _ => .inl up, requested⟩
  · rename_i notUp
    have wait := h.resolve_left notUp
    split
    · refine timed_setPort_notUp rfl ⟨fun fit => ?_, fun fit => ?_⟩ PortState.noConfusion
      · simp_all [PortBlock.timersFit]
      · rw [PortBlock.linkFit, wait] at fit
        obtain ⟨resend, retry, _, credit, sent⟩ := fit
        exact ⟨resend, retry, fun e => Bool.noConfusion e, credit, sent⟩
    · exact timed_enterWaking (.inr wait) true

end

/-! ### Signals, power and the tick -/

theorem timed_loseSignal (l : Link) (s : State) : Timed allClosed allClosed s (loseSignal l s) := by
  have gone : Timed allClosed allClosed s (s.modLink l fun e => { e with signal := false }) :=
    timed_counts
  unfold loseSignal
  split
  · simp only
    cases l with
    | trunk =>
      simp only
      split
      · exact gone
      all_goals exact gone.trans ((timed_trunkLoss ..).trans (timed_settle _))
    | branch p =>
      simp only
      split
      · exact gone.trans ((timed_portFail ..).trans (timed_settle _))
      · exact gone
  · exact .refl s

theorem timed_tick (s : State) : Timed allClosed allClosed s (tick s) := by
  have now : Timed allClosed allClosed s { s with time := s.time + 1 } := timed_of_ports {} (fun _ => rfl) id
  unfold tick
  simp only
  split
  · exact now.trans ((timed_examineAll _).trans ((timed_grantAll _).trans (timed_settle _)))
  · exact now

theorem timed_blank {X : PortIdx → Prop} (porN : Bool) (strap : BitVec 2) (q : List Instr) (s : State) :
    Timed X X s (State.blank porN strap q) :=
  timed_of_off (orderly_blank s porN strap q).housed.placed (fun p => ⟨true, port_blank porN strap q p⟩) fun _ => by
    simp [State.trunkFit, LinkEnd.fits, State.blank, LinkEnd.zero, once]

/-! ### Transmissions -/

section
variable {X : PortIdx → Prop}

/-- A frame that is taken where it is ready, and else leaves the state. -/
theorem timed_ifReady {s : State} {ready : Prop} [Decidable ready] {sent : State} (h : ready → Timed X X s sent) :
    Timed X X s (if ready then sent else s) := by
  split
  · rename_i go
    exact h go
  · exact .refl s

/-- A deferred SYNC has had its place among the 32 (R87, R91). -/
theorem timed_sendSync {l : Link} {s : State} (training : s.linkTraining l = true) (due : (s.linkEnd l).syncDue = true) :
    Timed X X s (sendSync l s) := by
  refine timed_setLink fun ⟨_, retry, ack, _, sent⟩ => ⟨fun _ => training, retry, ack, fun h => Bool.noConfusion h, ?_⟩
  rw [due] at sent
  exact sent

theorem timed_sendSyncAck (l : Link) (s : State) : Timed X X s (sendSyncAck l s) :=
  timed_setLink fun ⟨resend, retry, _, _, sent⟩ =>
    ⟨resend, retry, fun h => Bool.noConfusion h, fun h => Bool.noConfusion h, sent⟩

theorem timed_sendCredit (l : Link) (s : State) : Timed X X s (sendCredit l s) :=
  timed_setLink fun ⟨resend, retry, ack, _, sent⟩ => ⟨resend, retry, ack, fun h => Bool.noConfusion h, sent⟩

/-- The DOZE-REQ of DOZE_WAIT sets the answer deadline there (R115). -/
theorem timed_sendDozeReq {p : PortIdx} {s : State} (wait : (s.port p).state = .dozeWait) :
    Timed X X s (sendDozeReq p s) := by
  refine timed_setPort ⟨rfl, rfl, fun _ h => h⟩
    ⟨⟨fun fit => ?_, fun fit => ?_⟩, fun up => absurd (wait.symm.trans up) (by decide)⟩
  · obtain ⟨_, wake, idle, _, due, requested⟩ := fit
    exact ⟨fun _ => wait, wake, idle, fun h => Bool.noConfusion h, due, requested⟩
  · exact fit

theorem timed_sendWake (p : PortIdx) (s : State) : Timed X X s (sendWake p s) := by
  refine timed_setPort ⟨rfl, rfl, fun _ h => h⟩ ⟨⟨fun fit => ?_, fun fit => ?_⟩, fun up => ⟨up, rfl, rfl, rfl, rfl⟩⟩
  · obtain ⟨answer, wake, idle, req, _, requested⟩ := fit
    exact ⟨answer, wake, idle, req, fun h => Bool.noConfusion h, requested⟩
  · exact fit

/-- A queued READ that goes to SENT works for the port that it worked for (R68). -/
theorem worksFor_markSent (p : PortIdx) (q : ReqBody) (s : State) (j : EntryIdx) (k : PortIdx) :
    ((markSent p q s).entry j).worksFor k = (s.entry j).worksFor k := by
  unfold markSent
  split
  · rfl
  · rename_i i
    split
    · rename_i v live
      split
      · rename_i r hst
        rw [setStage_live live]
        show ((s.setEntry i _).entry j).worksFor k = _
        rw [State.entry_setEntry]
        split
        · rename_i hj
          rw [← hj, Entry.worksFor, Entry.worksFor, live]
          simp only [hst]
        · rfl
      · rfl
    · rfl

theorem markSent_outside (p : PortIdx) (q : ReqBody) (s : State) : (markSent p q s).ports = s.ports ∧
    (markSent p q s).trunk = s.trunk ∧ (markSent p q s).trunkState = s.trunkState := by
  unfold markSent
  split
  · exact ⟨rfl, rfl, rfl⟩
  · split
    · split <;> exact ⟨rfl, rfl, rfl⟩
    · exact ⟨rfl, rfl, rfl⟩

end

/-- The head of a queue is sent: the port may become idle (R68, R109, R113). -/
theorem timed_sendEgress {p : PortIdx} {q : Queued} {s : State} (h : s.egressReady p = some q) :
    Timed allClosed allClosed s (sendEgress p q s) := by
  obtain ⟨up, rest, hq⟩ := head_of_egressReady h
  let b := { s.port p with
    queue := (s.port p).queue.tail, link := ((s.port p).link.transmit (s.requestTx q)).countSent q.body.cls }
  have queue : (s.port p).queue = q :: b.queue := by
    show _ = q :: (s.port p).queue.tail
    rw [hq]; rfl
  have times : PortTimes (s.port p) b := by
    refine ⟨id, fun fit => ?_⟩
    show LinkEnd.fits (((s.port p).link.transmit (s.requestTx q)).countSent q.body.cls) _ _ _
    cases q.body.cls <;> exact fit
  obtain ⟨ports, trunk, state⟩ := markSent_outside p q.body (s.setPort p b)
  have port : ∀ k, (markSent p q.body (s.setPort p b)).port k = (s.setPort p b).port k := fun k => by
    rw [State.port, ports]
    rfl
  have self : (markSent p q.body (s.setPort p b)).port p = b := (port p).trans (State.port_setPort_self ..)
  have sent : Timed allClosed (alsoOpen allClosed p) s (markSent p q.body (s.setPort p b)) := by
    refine timed_open (housed_markSent queue up).placed (fun k hk => ?_) (by rwa [self]) (fun fit => ?_)
      (fun c => by rw [self]; exact c.interval p) fun _ k _ j => worksFor_markSent ..
    · rw [port, State.port_setPort_ne _ _ _ _ (Ne.symm hk)]
    · rwa [State.trunkFit, trunk, state]
  exact ((sent.trans (timed_grantWindows p _)).refreshed).trans (timed_settle _)

/-- The counts of the trunk have no part in its timers. -/
theorem trunkFit_transmit {s : State} (h : s.trunkFit) (f : TxFrame) : ((s.trunk.transmit f).countSent .a).fits
    (s.trunkState == .training) (s.trunkState == .down) (s.trunkState == .up) := h

/-- The head of the reply lane is sent; its entry worked for no port (R76). -/
theorem timed_sendReply (s : State) : Timed allClosed allClosed s (sendReply s) := by
  unfold sendReply
  split
  · exact .refl s
  · rename_i i rest hr
    dsimp only
    refine Timed.trans ?_ (timed_settle _)
    generalize ht : (s.trunk.transmit (s.answerOf i)).countSent .a = e
    have trunk : s.trunkFit → e.fits (s.trunkState == .training) (s.trunkState == .down) (s.trunkState == .up) := fun h => by
      rw [← ht]
      exact trunkFit_transmit h _
    let u : State := { s.setEntry i { s.entry i with live := none } with replyLane := rest, laneLast := .reply, trunk := e }
    have lane : s.placed → (s.entry i).place = some .lane := fun hs =>
      (hs.mem_iff (x := .lane)).mp (by rw [State.readsAt, hr]; exact List.mem_cons_self)
    have reads : ∀ x, u.readsAt x = if x = .lane then rest else s.readsAt x := by
      intro x
      cases x <;> rfl
    have self : u.entry i = { s.entry i with live := none } := State.entry_setEntry_self ..
    have others : ∀ j, j ≠ i → u.entry j = s.entry j := fun j hj => State.entry_setEntry_ne _ _ _ _ (Ne.symm hj)
    have placed : s.placed → u.placed := fun hs => by
      obtain ⟨gone, kept⟩ := count_tail_of_nodup hr (hs.nodup .lane)
      have moves : MovesOnly i s u := ⟨others, fun j hj x => by
        rw [reads]
        split
        · rename_i hx; rw [hx]; exact kept j hj
        · rfl⟩
      refine moves.placed hs ⟨by rw [self]; rfl, fun x => ?_⟩
      have nowhere : (u.readsAt x).count i = 0 := by
        rw [reads]
        split
        · exact gone
        · rename_i hx
          rw [(placed_iff.mp hs i).count, once_decide_eq_zero, lane hs]
          exact fun h => hx (Option.some.inj h).symm
      rw [nowhere, self]
      rfl
    show Timed allClosed allClosed s u
    refine ⟨placed, fun _ => .refl _, trunk, fun hs c => c.calm (fun _ => .refl _) fun p closed _ =>
      ⟨closed, portIdle_congr rfl rfl fun j => ?_⟩⟩
    by_cases hj : j = i
    · rw [hj, self, worksFor_of_free rfl, worksFor_eq_false]
      rw [lane hs]
      exact ⟨by simp, by simp⟩
    · rw [others j hj]

theorem timed_sendGeneral (s : State) : Timed allClosed allClosed s (sendGeneral s) := by
  unfold sendGeneral
  split
  · exact .refl s
  · rename_i f rest _
    dsimp only
    refine Timed.trans ?_ (timed_settle _)
    refine timed_of_ports {} (fun _ => rfl) fun h => ?_
    cases f <;> exact h

/-! ### Every command -/

/-- Every command keeps the timers, and leaves no port open. -/
theorem timed_exec {c : Instr} {s t : State} (h : exec c s = .next t) : Timed allClosed allClosed s t := by
  suffices all : ∃ u, exec c s = .next u ∧ Timed allClosed allClosed s u by
    obtain ⟨u, hu, timed⟩ := all
    rw [h] at hu
    obtain rfl := Host.Outcome.next.inj hu
    exact timed
  cases c with
  | porAssert => exact ⟨_, rfl, timed_blank ..⟩
  | porRelease id1 id0 => exact ⟨_, rfl, (timed_blank true (strapOf id1 id0) s.pending s).trans (timed_startTraining ..)⟩
  | signalLost l => exact ⟨_, rfl, timed_whenPowered (timed_loseSignal l s)⟩
  | crcError l => exact ⟨_, rfl, timed_crcFail l s⟩
  | trunkIngressFrame f => exact ⟨_, rfl, timed_receiveRequest f s⟩
  | trunkReset size =>
    refine ⟨_, rfl, timed_receive size (fun u _ => timed_discardFrame ..) (fun u _ => ?_) (fun u _ => .refl u)
      (fun u _ => .refl u) s⟩
    split
    · exact timed_trunkReset u
    · exact timed_frameInvalid ..
  | syncReceived l size a b => exact ⟨_, rfl, timed_receiveSync ..⟩
  | syncAckReceived l size a b => exact ⟨_, rfl, timed_receiveSyncAck ..⟩
  | creditReceived l size a b => exact ⟨_, rfl, timed_receiveCredit ..⟩
  | moduleWriteArrival p size n a data =>
    refine ⟨_, rfl, timed_receive size (fun u _ => timed_discardFrame ..) (fun u phase => ?_)
      (fun u _ => timed_frameInvalid ..) (fun u _ => timed_discardFrame ..) s⟩
    split
    · exact timed_acceptUpWrite (linkOpen_of_rxPhase (by rw [phase]; decide)) ..
    · exact timed_frameInvalid ..
  | branchResultArrival p size status ticket count data =>
    exact ⟨_, rfl, timed_receive size (fun u _ => timed_discardFrame ..)
      (fun u _ => timed_acceptResult p size status ticket count data u) (fun u _ => timed_frameInvalid ..)
      (fun u _ => timed_discardFrame ..) s⟩
  | eventFrame p size code =>
    refine ⟨_, rfl, timed_receive size (fun u _ => timed_discardFrame ..) (fun u _ => ?_) (fun u _ => timed_frameInvalid ..)
      (fun u _ => timed_discardFrame ..) s⟩
    split
    · exact timed_arrival ..
    · exact timed_frameInvalid ..
  | dozeAck p size =>
    refine ⟨_, rfl, timed_receive size (fun u _ => timed_discardFrame ..) (fun u phase => ?_)
      (fun u _ => timed_frameInvalid ..) (fun u _ => timed_discardFrame ..) s⟩
    split
    · exact timed_acceptDozeAck (state_of_live phase)
    · exact timed_frameInvalid ..
  | moduleWake p size =>
    refine ⟨_, rfl, timed_receive size (fun u _ => timed_discardFrame ..) (fun u _ => ?_) (fun u phase => ?_)
      (fun u _ => timed_discardFrame ..) s⟩ <;> split
    · exact .refl u
    · exact timed_frameInvalid ..
    · exact timed_enterWaking (.inl (state_of_doze phase)) false
    · exact timed_frameInvalid ..
  | resendDeadline l => exact ⟨_, rfl, timed_whenPowered (timed_resendReached l s)⟩
  | retryDeadline l => exact ⟨_, rfl, timed_whenPowered (timed_retryReached l s)⟩
  | ticketDeadline i => exact ⟨_, rfl, timed_whenPowered (timed_ticketReached i s)⟩
  | headWaitDeadline => exact ⟨_, rfl, timed_whenPowered (timed_headWaitReached s)⟩
  | answerDeadline p => exact ⟨_, rfl, timed_whenPowered (timed_answerReached p s)⟩
  | wakeDeadline p => exact ⟨_, rfl, timed_whenPowered (timed_wakeReached p s)⟩
  | idleDeadline p => exact ⟨_, rfl, timed_whenPowered (timed_idleReached p s)⟩
  | syncTransmit l =>
    refine ⟨_, rfl, timed_whenPowered (timed_ifReady fun ready => ?_)⟩
    simp only [syncReady, Bool.and_eq_true] at ready
    obtain ⟨⟨training, due⟩, _⟩ := ready
    exact timed_sendSync training due
  | syncAckTransmit l => exact ⟨_, rfl, timed_whenPowered (timed_ifReady fun _ => timed_sendSyncAck l s)⟩
  | creditTransmit l => exact ⟨_, rfl, timed_whenPowered (timed_ifReady fun _ => timed_sendCredit l s)⟩
  | dozeReqTransmit p =>
    refine ⟨_, rfl, timed_whenPowered (timed_ifReady fun ready => ?_)⟩
    simp only [dozeReqReady, Bool.and_eq_true, beq_iff_eq] at ready
    obtain ⟨⟨wait, _⟩, _⟩ := ready
    exact timed_sendDozeReq wait
  | wakeTransmit p => exact ⟨_, rfl, timed_whenPowered (timed_ifReady fun _ => timed_sendWake p s)⟩
  | branchEgressTransmit p =>
    refine ⟨_, rfl, timed_whenPowered ?_⟩
    cases hq : s.egressReady p with
    | none => exact .refl s
    | some q => exact timed_sendEgress hq
  | replyLaneTransmit => exact ⟨_, rfl, timed_whenPowered (timed_ifReady fun _ => timed_sendReply s)⟩
  | generalQueueTransmit => exact ⟨_, rfl, timed_whenPowered (timed_ifReady fun _ => timed_sendGeneral s)⟩
  | signalPresent l => exact ⟨_, rfl, timed_whenPowered (timed_counts)⟩
  | routerTimeTick => exact ⟨_, rfl, timed_whenPowered (timed_tick s)⟩
  | transmitterFree l => exact ⟨_, rfl, timed_whenPowered (timed_counts)⟩
  | disallowedKindFrame l size kind =>
    exact ⟨_, rfl, timed_receive size (fun u _ => timed_discardFrame ..) (fun u _ => timed_frameInvalid ..)
      (fun u _ => timed_frameInvalid ..) (fun u _ => timed_discardFrame ..) s⟩
  | windowRecordWrite w bytes | apertureBaseWrite v | ticketLifetimeWrite v | headWaitLimitWrite v | routerReset
  | portEnable p e u v | autoDozeIntervalWrite p e u v | dozeCommand p | wakeCommand p | portResetCommand p
  | eventLineEnableWrite i e v | ack i | clear i | pop | droppedCountClear v | counterClear l k n v
  | managementWrite off data => exact ⟨_, rfl, timed_receiveRequest ..⟩

/-- A step runs one command, or none (log 2). -/
theorem timed_step {s t : State} (h : step s = .next t) : Timed allClosed allClosed s t := by
  unfold step at h
  split at h
  · obtain rfl := Host.Outcome.next.inj h
    exact .refl s
  · rename_i c rest _
    have taken : Timed allClosed allClosed s (s.withPending rest) := timed_of_ports {} (fun _ => rfl) id
    exact taken.trans (timed_exec h)

/-- Settles O55: every step keeps the timers of each port and link, and the idle deadline of every port. -/
theorem stepsKeepTimersInTheirStates : Obligations.StepsKeepTimersInTheirStates := by
  unfold Obligations.StepsKeepTimersInTheirStates
  intro s t h
  have run := timed_step h
  have ports : s.portTimers → t.portTimers := fun hs p => (run.ports p).timers (hs p)
  refine ⟨ports, ?_, fun placed timers idle => ?_⟩
  · rw [linkTimers_iff, linkTimers_iff]
    exact fun ⟨trunk, links⟩ => ⟨run.trunk trunk, fun p => (run.ports p).link (links p)⟩
  · exact (clocked_iff (ports timers)).mp (run.clocked placed ((clocked_iff timers).mpr idle))

end Sys2Proof.Machine
end

section
/-! The frames of a module's event lines and doze cycle (R116, R119, R120, R125), and the deadlines of the doze cycle (R113,
R115, R117). -/

namespace Sys2Proof.Machine

-- The theorems are checked one after the other, which bounds the memory that the check takes.
set_option Elab.async false

/-! ### Events -/

/-- The line of an event code, by its number (R125). -/
theorem eventLine_eq {p : PortIdx} {code : BitVec 3} {i : LineIdx} (h : i.val = 8 * p.val + code.toNat) :
    eventLine p code = i := by
  rw [eventLine, ← h]
  exact Fin.ofNat_val_eq_self i

/-- Settles O25: the frame is counted, and its arrival moves the line by its state. -/
theorem eventRaisesItsLine : Obligations.EventRaisesItsLine := by
  unfold Obligations.EventRaisesItsLine
  intro p code s i live number
  show Host.Outcome.next (receive (.branch p) 3 _ _ _ _ s) = _
  rw [receive_live (by decide) live, if_pos rfl, eventLine_eq number]
  show Host.Outcome.next (serveClaims ((s.frameIn (.branch p)).setLine i (s.line i).arrive)) = _
  unfold EventLine.arrive
  cases (s.line i).state <;> rfl

/-! ### Frames of the doze cycle -/

section
variable {s : State} {p : PortIdx}

/-- A port that a frame reaches treats it by its state (R97, R102, R119, R120). -/
theorem rxPhase_branch (h : s.rxPhase (.branch p) ≠ .deaf) :
    ((s.port p).state = .up ∨ (s.port p).state = .dozeWait → s.rxPhase (.branch p) = .live) ∧
    ((s.port p).state = .doze → s.rxPhase (.branch p) = .doze) := by
  unfold State.rxPhase at h ⊢
  split at h
  · rename_i powered
    rw [if_pos powered]
    exact ⟨fun state => by rcases state with state | state <;> simp only [state], fun state => by simp only [state]⟩
  · exact absurd rfl h

/-- A port that a frame wakes, or that goes on from DOZE to WAKING, keeps its queue and loses its SYNC-ACK (R110, R120). -/
theorem enterWaking_frameIn (started : Bool) : enterWaking started p (s.frameIn (.branch p)) = s.setPort p { s.port p with
    link := { (s.port p).link with framesIn := (s.port p).link.framesIn + 1, syncAckDue := false }, state := .waking
    wake := some (s.time + (s.port p).wakeLimit.setWidth 32), answer := none, idle := none, dozeReqDue := false
    wakeDue := started } := by
  simp [enterWaking, State.frameIn]

/-- A DOZE-ACK of the correct size in UP or DOZE_WAIT is counted and accepted (R116). -/
theorem exec_dozeAck_live (h : s.rxPhase (.branch p) = .live) :
    exec (.dozeAck p 3) s = .next (acceptDozeAck p (s.frameIn (.branch p))) := by
  show Host.Outcome.next (receive (.branch p) 3 _ _ _ _ s) = _
  rw [receive_live (by decide) h, if_pos rfl]

theorem port_frameIn : (s.frameIn (.branch p)).port p =
    { s.port p with link := { (s.port p).link with framesIn := (s.port p).link.framesIn + 1 } } := by
  simp [State.frameIn]

end

/-- Settles O26: the state of the port decides, and in DOZE_WAIT whether its queue is empty. -/
theorem dozeAckAndModuleWake : Obligations.DozeAckAndModuleWake := by
  unfold Obligations.DozeAckAndModuleWake
  intro p s b e waking hears
  obtain ⟨live, doze⟩ := rxPhase_branch hears
  have framed : sizeFramed 3 = true := by decide
  have port : (s.frameIn (.branch p)).port p = { b with link := e } := port_frameIn
  have counted (c : PortBlock) : (s.frameIn (.branch p)).setPort p c = s.setPort p c := by simp [State.frameIn]
  refine ⟨fun wait empty => ?_, fun wait busy => ?_, fun up => ?_, fun dozes => ?_, fun awake => ?_⟩
  · rw [exec_dozeAck_live (live (.inr wait))]
    simp only [acceptDozeAck, port, wait, empty, List.isEmpty_nil, reduceCtorEq, if_false, if_true, State.modPort_eq, counted]
  · have busy' : b.queue.isEmpty = false := by simpa using busy
    rw [exec_dozeAck_live (live (.inr wait))]
    simp only [acceptDozeAck, port, wait, busy', reduceCtorEq, Bool.false_eq_true, if_false, enterWaking_frameIn]
    rfl
  · rw [exec_dozeAck_live (live (.inl up))]
    simp only [acceptDozeAck, port, up, if_true, State.modPort_eq, counted]
  · show Host.Outcome.next (receive (.branch p) 3 _ _ _ _ s) = _
    rw [receive_doze framed (doze dozes), if_pos rfl, enterWaking_frameIn]
  · show Host.Outcome.next (receive (.branch p) 3 _ _ _ _ s) = _
    rw [receive_live framed (live awake), if_pos rfl]
    rfl

/-! ### Deadlines of the doze cycle -/

/-- Settles O29: each deadline passes its test. -/
theorem answerAndIdleDeadlines : Obligations.AnswerAndIdleDeadlines := by
  unfold Obligations.AnswerAndIdleDeadlines
  intro p s b powered
  refine ⟨fun wait due => ?_, fun up due => ?_⟩
  · show Host.Outcome.next (whenPowered (answerReached p) s) = _
    rw [whenPowered_of_high powered, answerReached, if_pos ⟨wait, due⟩, State.modPort_eq]
  · show Host.Outcome.next (whenPowered (idleReached p) s) = _
    rw [whenPowered_of_high powered, idleReached, if_pos ⟨up, due⟩, enterDozeWait, State.modPort_eq]

end Sys2Proof.Machine
end

section
/-! Management WRITEs at a free decoder (R171 to R174): the forms that are refused, the values that are refused, and the WRITEs
that have no effect. -/

namespace Sys2Proof.Machine

-- The theorems are checked one after the other, which bounds the memory that the check takes.
set_option Elab.async false

/-! ### Forms -/

/-- A WRITE has the correct form for a record exactly when a READ of its bytes has, and it covers a window record whole and the
8-byte fields whole or not at all (R171). -/
theorem writeForm_eq_some_iff {off len : Nat} {r : RecordId} {k : Nat} : writeForm off len = some (r, k) ↔
    readForm off len = some (r, k) ∧ (∀ w, r = .window w → k = 0 ∧ len = 32) ∧
      (r = .control → wholeField k len 0x00 8 = true) ∧ (∀ p, r = .port p → wholeField k len 0x10 8 = true) := by
  unfold writeForm
  cases hread : readForm off len with
  | none => simp
  | some found =>
    by_cases same : found = (r, k)
    · subst same
      cases r <;> simp
    · exact ⟨fun h => absurd (Option.some.inj (Option.ite_none_right_eq_some.mp h).2) same,
        fun ⟨h, _⟩ => absurd (Option.some.inj h) same⟩

/-- A WRITE ends before a field, begins behind it, or covers it (R171). -/
theorem wholeField_iff {k len field size : Nat} : wholeField k len field size = true ↔
    k + len ≤ field ∨ field + size ≤ k ∨ (k ≤ field ∧ field + size ≤ k + len) := by
  simp [wholeField, or_assoc]

/-- Two records that contain the bytes of one WRITE are one record (R170). -/
theorem record_unique {off len : Nat} {r x : RecordId} (hlen : 1 ≤ len) (hr : r.offset ≤ off ∧ off + len ≤ r.offset + r.size)
    (hx : x.offset ≤ off ∧ off + len ≤ x.offset + x.size) : r = x := by
  have found : ∀ y : RecordId, y.offset ≤ off ∧ off + len ≤ y.offset + y.size → recordAt off = some y :=
    fun y ⟨low, high⟩ => recordAt_of_inside low (by omega)
  exact Option.some.inj ((found r hr).symm.trans (found x hx))

section
variable {s : State} (h : s.hostReady) {off : Nat} {data : List Byte} (ho : off < 0x10000) (h1 : 1 ≤ data.length)
  (h2 : data.length ≤ 64)
include h ho h1 h2

/-- A WRITE whose form is not correct, or that carries an invalid value, is discarded with MGMT_FORM (R171 to R173). -/
theorem hostWrite_refused (bad : ∀ r k, writeForm off data.length = some (r, k) → validFields r k data = false) :
    hostWrite off data s = recordFault .mgmtForm .management (windowAt off) none
      (some (s.apertureBase + BitVec.ofNat 40 off)) none s.writeTaken := by
  obtain ⟨_, _, _, _, _, base⟩ := id h
  cases form : writeForm off data.length with
  | none =>
    have offset : s.writeTaken.offsetOf (s.apertureBase + BitVec.ofNat 40 off) = off := (aperture_offset base ho).2
    rw [hostWrite_hostReady h ho h1 h2]
    simp only [manageWrite, offset, form, mgmtForm, serveClaims_recordFault]
  | some found => exact hostWrite_invalid h ho h1 h2 form (bad _ _ form)

/-- A WRITE of the correct form that leaves the record, or replaces what no claim rests on, is done at its arrival. -/
theorem hostWrite_quiet {r : RecordId} {k : Nat} {u : State} (form : writeForm off data.length = some (r, k))
    (valid : validFields r k data = true)
    (effect : applyRecord r k data (s.apertureBase + BitVec.ofNat 40 off) s.writeTaken = u) (quiet : serveClaims u = u) :
    hostWrite off data s = u := by
  rw [hostWrite_applied h ho h1 h2 form valid, effect, quiet]

end

end Sys2Proof.Machine
end

section
/-! Values that a management WRITE carries: the numbers that its bytes spell in each field, and the values that are refused (R172,
R188, R189). -/

namespace Sys2Proof.Machine

-- The theorems are checked one after the other, which bounds the memory that the check takes.
set_option Elab.async false

/-! ### The numbers that written bytes spell -/

/-- Bytes in front of others stand above all of them. -/
theorem beNat_append (xs ys : List Byte) : beNat (xs ++ ys) = beNat xs * 256 ^ ys.length + beNat ys := by
  induction xs with
  | nil => simp [beNat]
  | cons x xs ih =>
    rw [List.cons_append, beNat_cons, beNat_cons, ih, List.length_append, pow_add]
    ring

theorem fieldAt_one {bs : List Byte} {k : Nat} (h : k < bs.length) : fieldAt bs k 1 = (bs.getD k 0).toNat := by
  refine fieldAt_byte ?_
  rw [List.drop_eq_getElem_cons h, List.take_succ_cons, List.take_zero, List.getD_eq_getElem _ _ h]

/-- A slice is its front part above its back part. -/
theorem fieldAt_add {bs : List Byte} {k : Nat} (m n : Nat) (h : k + m + n ≤ bs.length) :
    fieldAt bs k (m + n) = fieldAt bs k m * 256 ^ n + fieldAt bs (k + m) n := by
  have back : (((bs.drop k).drop m).take n).length = n := by simp; omega
  rw [fieldAt, List.take_add, beNat_append, back, List.drop_drop]
  rfl

/-- Two bytes spell their concatenation. -/
theorem beNat_two (a b : Byte) : beNat [a, b] = (a ++ b : BitVec 16).toNat := by
  rw [toNat_append_byte]
  simp [beNat]

section
variable (r : RecordId) (off : Nat) (data : List Byte) (k : Nat)

/-- The byte that a WRITE at `off` carries for offset `k` of a record. -/
def writtenOne : Byte := data.getD (r.offset + k - off) 0

/-- The number of two bytes that a WRITE at `off` carries from offset `k` of a record on. -/
def writtenTwo : Nat := (writtenOne r off data k ++ writtenOne r off data (k + 1) : BitVec 16).toNat

/-- The number of four bytes that a WRITE at `off` carries from offset `k` of a record on. -/
def writtenFour : Nat := 65536 * writtenTwo r off data k + writtenTwo r off data (k + 2)

end

section
variable {r : RecordId} {off : Nat} {data : List Byte} {k : Nat} (hr : r.offset ≤ off) (hk : off ≤ r.offset + k)
include hr hk

/-- A WRITE that covers a field carries the bytes that it writes there. -/
theorem fieldOf_covered {n : Nat} (hn : r.offset + k + n ≤ off + data.length) :
    fieldOf (off - r.offset) data k n = some (fieldAt data (r.offset + k - off) n) := by
  have index : k - (off - r.offset) = r.offset + k - off := by omega
  rw [fieldOf, if_pos (by omega), index]
  rfl

omit hr in
theorem fieldAt_written (m n : Nat) (h : r.offset + k + m + n ≤ off + data.length) :
    fieldAt data (r.offset + k - off) (m + n) =
      fieldAt data (r.offset + k - off) m * 256 ^ n + fieldAt data (r.offset + (k + m) - off) n := by
  have index : r.offset + k - off + m = r.offset + (k + m) - off := by omega
  rw [fieldAt_add m n (by omega), index]

omit hr in
theorem fieldAt_writtenOne (h : r.offset + k + 1 ≤ off + data.length) :
    fieldAt data (r.offset + k - off) 1 = (writtenOne r off data k).toNat := fieldAt_one (by omega)

omit hr in
theorem fieldAt_writtenTwo (h : r.offset + k + 2 ≤ off + data.length) :
    fieldAt data (r.offset + k - off) 2 = writtenTwo r off data k := by
  rw [fieldAt_written hk 1 1 h, fieldAt_writtenOne hk (by omega), fieldAt_writtenOne (k := k + 1) (by omega) (by omega),
    writtenTwo, toNat_append_byte]
  rfl

omit hr in
theorem fieldAt_writtenFour (h : r.offset + k + 4 ≤ off + data.length) :
    fieldAt data (r.offset + k - off) 4 = writtenFour r off data k := by
  rw [fieldAt_written hk 2 2 h, fieldAt_writtenTwo hk (by omega), fieldAt_writtenTwo (k := k + 2) (by omega) (by omega),
    writtenFour]
  omega

theorem fieldOf_one (h : r.offset + k + 1 ≤ off + data.length) :
    fieldOf (off - r.offset) data k 1 = some (writtenOne r off data k).toNat := by
  rw [fieldOf_covered hr hk h, fieldAt_writtenOne hk h]

theorem fieldOf_two (h : r.offset + k + 2 ≤ off + data.length) :
    fieldOf (off - r.offset) data k 2 = some (writtenTwo r off data k) := by
  rw [fieldOf_covered hr hk h, fieldAt_writtenTwo hk h]

theorem fieldOf_four (h : r.offset + k + 4 ≤ off + data.length) :
    fieldOf (off - r.offset) data k 4 = some (writtenFour r off data k) := by
  rw [fieldOf_covered hr hk h, fieldAt_writtenFour hk h]

theorem fieldOf_eight (h : r.offset + k + 8 ≤ off + data.length) :
    fieldOf (off - r.offset) data k 8 = some (writtenFour r off data k * 2 ^ 32 + writtenFour r off data (k + 4)) := by
  rw [fieldOf_covered hr hk h, fieldAt_written hk 4 4 h, fieldAt_writtenFour hk (by omega),
    fieldAt_writtenFour (k := k + 4) (by omega) (by omega)]
  rfl

end

/-! ### Values that are refused -/

/-- A field that a WRITE covers is judged by its value. -/
theorem fieldIs_some (v : Nat) (p : Nat → Bool) : fieldIs (some v) p = p v := rfl

/-- The range of an aperture base: the 64 KiB boundaries of the 40-bit space (R169). -/
theorem apertureBase_iff {v : Nat} : fieldIs (some v) (fun v => v < 2 ^ 40 && v % 2 ^ 16 == 0) = true ↔
    v < 2 ^ 40 ∧ v % 0x10000 = 0 := by
  simp [fieldIs_some]

/-- Whether a number lies at a 64 KiB boundary rests on its last four bytes. -/
theorem mod_boundary (high low : Nat) : (high * 2 ^ 32 + low) % 0x10000 = low % 0x10000 := by omega

section
variable (off : Nat) (data : List Byte)

/-- A WRITE writes the byte at an offset of the aperture. -/
def reaches (k : Nat) : Prop := off ≤ k ∧ k < off + data.length

/-- Values of router control that are out of their ranges (R59, R65, R169, R178). -/
def badControl : Prop :=
  off = 0x40 ∧ 0 < data.length ∧ (2 ^ 40 ≤ writtenFour .control off data 0 * 2 ^ 32 + writtenFour .control off data 4 ∨
      writtenFour .control off data 4 % 0x10000 ≠ 0) ∨
  reaches off data 0x48 ∧ (writtenFour .control off data 8 < 16 ∨ 1048575 < writtenFour .control off data 8) ∨
  reaches off data 0x4C ∧ 65535 < writtenFour .control off data 0xC ∨
  reaches off data 0x50 ∧ 1 < writtenFour .control off data 0x10

/-- Values of a branch port that are out of their ranges (R104, R106). -/
def badPort (p : PortIdx) : Prop :=
  reaches off data (RecordId.port p).offset ∧ (1 < (writtenOne (.port p) off data 0).toNat ∨
      1 < (writtenOne (.port p) off data 1).toNat ∨ 255 < writtenTwo (.port p) off data 2) ∨
  reaches off data ((RecordId.port p).offset + 4) ∧ writtenTwo (.port p) off data 4 < 10 ∨
  reaches off data ((RecordId.port p).offset + 8) ∧ 3 < (writtenOne (.port p) off data 8).toNat

/-- Values of an event line that are out of their ranges (R151). -/
def badLine (i : LineIdx) : Prop :=
  reaches off data (RecordId.line i).offset ∧ 1 < (writtenOne (.line i) off data 0).toNat ∨
  reaches off data ((RecordId.line i).offset + 4) ∧ 2 < (writtenOne (.line i) off data 4).toNat

/-- A command code of the fault log that is out of its range (R164, R178). -/
def badLogControl : Prop := reaches off data 0x5028 ∧ 1 < writtenFour .logControl off data 8

end

section
variable {off : Nat} {data : List Byte} (hoff : off % 4 = 0) (hlen : data.length % 4 = 0)
include hoff hlen

theorem validFields_control_eq_false (low : RecordId.control.offset ≤ off)
    (whole : wholeField (off - RecordId.control.offset) data.length 0x00 8 = true) (bad : badControl off data) :
    validFields .control (off - RecordId.control.offset) data = false := by
  have origin : RecordId.control.offset = 0x40 := rfl
  rw [← Bool.not_eq_true]
  intro valid
  simp only [validFields, Bool.and_eq_true] at valid
  obtain ⟨⟨⟨base, life⟩, wait⟩, command⟩ := valid
  rcases bad with ⟨rfl, nonempty, value⟩ | ⟨⟨_, _⟩, value⟩ | ⟨⟨_, _⟩, value⟩ | ⟨⟨_, _⟩, value⟩
  · have eight : 8 ≤ data.length := by simpa [wholeField, origin, show data.length ≠ 0 by omega] using whole
    rw [fieldOf_eight (by omega) (by omega) (by omega)] at base
    obtain ⟨short, aligned⟩ := apertureBase_iff.mp base
    rw [mod_boundary, Nat.zero_add] at aligned
    rw [Nat.zero_add] at short
    exact value.elim (not_le.mpr short) (absurd aligned)
  · rw [fieldOf_four (by omega) (by omega) (by omega)] at life
    simp only [fieldIs_some, Bool.and_eq_true, decide_eq_true_eq] at life
    omega
  · rw [fieldOf_four (by omega) (by omega) (by omega)] at wait
    simp only [fieldIs_some, decide_eq_true_eq] at wait
    omega
  · rw [fieldOf_four (by omega) (by omega) (by omega)] at command
    simp only [fieldIs_some, decide_eq_true_eq] at command
    omega

theorem validFields_port_eq_false {p : PortIdx} (low : (RecordId.port p).offset ≤ off) (bad : badPort off data p) :
    validFields (.port p) (off - (RecordId.port p).offset) data = false := by
  have origin : (RecordId.port p).offset % 4 = 0 := by simp only [RecordId.offset]; omega
  rw [← Bool.not_eq_true]
  intro valid
  simp only [validFields, Bool.and_eq_true] at valid
  obtain ⟨⟨⟨⟨enable, upWrite⟩, interval⟩, limit⟩, command⟩ := valid
  rcases bad with ⟨⟨_, _⟩, value⟩ | ⟨⟨_, _⟩, value⟩ | ⟨⟨_, _⟩, value⟩
  · rw [fieldOf_one (by omega) (by omega) (by omega)] at enable upWrite
    rw [fieldOf_two (by omega) (by omega) (by omega)] at interval
    simp only [fieldIs_some, decide_eq_true_eq] at enable upWrite interval
    omega
  · rw [fieldOf_two (by omega) (by omega) (by omega)] at limit
    simp only [fieldIs_some, Bool.and_eq_true, decide_eq_true_eq] at limit
    omega
  · rw [fieldOf_one (by omega) (by omega) (by omega)] at command
    simp only [fieldIs_some, decide_eq_true_eq] at command
    omega

theorem validFields_line_eq_false {i : LineIdx} (low : (RecordId.line i).offset ≤ off) (bad : badLine off data i) :
    validFields (.line i) (off - (RecordId.line i).offset) data = false := by
  have origin : (RecordId.line i).offset % 4 = 0 := by simp only [RecordId.offset]; omega
  rw [← Bool.not_eq_true]
  intro valid
  simp only [validFields, Bool.and_eq_true] at valid
  obtain ⟨enable, command⟩ := valid
  rcases bad with ⟨⟨_, _⟩, value⟩ | ⟨⟨_, _⟩, value⟩
  · rw [fieldOf_one (by omega) (by omega) (by omega)] at enable
    simp only [fieldIs_some, decide_eq_true_eq] at enable
    omega
  · rw [fieldOf_one (by omega) (by omega) (by omega)] at command
    simp only [fieldIs_some, decide_eq_true_eq] at command
    omega

theorem validFields_logControl_eq_false (low : RecordId.logControl.offset ≤ off) (bad : badLogControl off data) :
    validFields .logControl (off - RecordId.logControl.offset) data = false := by
  have origin : RecordId.logControl.offset = 0x5020 := rfl
  rw [← Bool.not_eq_true]
  intro valid
  obtain ⟨⟨_, _⟩, value⟩ := bad
  rw [validFields, fieldOf_four (by omega) (by omega) (by omega)] at valid
  simp only [fieldIs_some, decide_eq_true_eq] at valid
  omega

end

end Sys2Proof.Machine
end

section
/-! Management WRITEs at a free decoder that have no effect, that replace one item of a port, or that carry fields and the command of
their record (R104, R106, R151, R163, R174, R178). -/

namespace Sys2Proof.Machine

-- The theorems are checked one after the other, which bounds the memory that the check takes.
set_option Elab.async false

/-! ### The forms of the WRITEs -/

/-- An aligned request inside a record is given that record (R170, R171). -/
theorem readForm_of_inside {r : RecordId} {off len : Nat} (h1 : 1 ≤ len) (hoff : off % 4 = 0) (hlen : len % 4 = 0)
    (inside : r.offset ≤ off ∧ off + len ≤ r.offset + r.size) : readForm off len = some (r, off - r.offset) :=
  (readForm_eq_some_iff h1).mpr ⟨hoff, hlen, inside.1, inside.2, rfl⟩

/-- Groups of a port record that contain its upstream offset or lie beside it (R171). -/
theorem writeForm_portGroups (p : PortIdx) {k len : Nat} (h1 : 1 ≤ len) (hk : k % 4 = 0) (hlen : len % 4 = 0)
    (inside : k + len ≤ 48) (whole : wholeField k len 0x10 8 = true) :
    writeForm ((RecordId.port p).offset + k) len = some (.port p, k) := by
  refine writeForm_eq_some_iff.mpr ⟨(readForm_eq_some_iff h1).mpr ⟨?_, hlen, by omega, ?_, by omega⟩, by simp, by simp,
    fun _ _ => whole⟩
  · simp only [RecordId.offset]; omega
  · simp only [RecordId.size]; omega

theorem writeForm_lineGroups (i : LineIdx) {k len : Nat} (h1 : 1 ≤ len) (hk : k % 4 = 0) (hlen : len % 4 = 0)
    (inside : k + len ≤ 8) : writeForm ((RecordId.line i).offset + k) len = some (.line i, k) := by
  refine writeForm_eq_some_iff.mpr ⟨(readForm_eq_some_iff h1).mpr ⟨?_, hlen, by omega, ?_, by omega⟩, by simp, by simp, by simp⟩
  · simp only [RecordId.offset]; omega
  · simp only [RecordId.size]; omega

/-- A WRITE whose first byte is a field of one byte carries that byte for it. -/
theorem fieldOf_head (k : Nat) (b : Byte) (rest : List Byte) : fieldOf k (b :: rest) k 1 = some b.toNat := by
  rw [fieldOf, if_pos (by simp), Nat.sub_self]
  exact congrArg some (beNat_singleton b)

/-- A byte of zero in front of others adds nothing to their number. -/
theorem beNat_zero_cons (bs : List Byte) : beNat (0 :: bs) = beNat bs := by simp [beNat_cons]

/-! ### WRITEs that have no effect -/

section
variable {p : PortIdx} {k : Nat} {data : List Byte}

/-- The groups of a port behind its command and behind its upstream offset hold only read-only or reserved bytes (R189). -/
theorem writePort_reserved (hk : k = 0x0C ∨ k = 0x18) (hlen : data.length = 4) (s : State) :
    validFields (.port p) k data = true ∧ writePort p k data s = s := by
  have before : ∀ field size, field < 0x0C → fieldOf k data field size = none := fun _ _ _ => fieldOf_before (by omega)
  have offset : fieldOf k data 0x10 8 = none := by
    rcases hk with rfl | rfl
    · exact fieldOf_beyond (by omega)
    · exact fieldOf_before (by omega)
  have stale : fieldOf k data 0x2C 4 = none := fieldOf_beyond (by omega)
  constructor
  · simp (disch := decide) only [validFields, before, fieldIs, Bool.and_self]
  · simp (disch := decide) only [writePort, before, offset, stale, withField]
    exact clearCounters_beyond (by omega) ..

/-- The command code 0 of a port is no command (R106). -/
theorem writePort_noCommand {rest : List Byte} (hlen : rest.length = 3) (s : State) :
    validFields (.port p) 8 (0 :: rest) = true ∧ writePort p 8 (0 :: rest) s = s := by
  have before : ∀ field size, field < 8 → fieldOf 8 (0 :: rest) field size = none := fun _ _ h => fieldOf_before h
  have beyond : ∀ field size, 12 < field + size → fieldOf 8 (0 :: rest) field size = none :=
    fun _ _ h => fieldOf_beyond (by simpa [hlen] using h)
  constructor
  · simp (disch := decide) only [validFields, before, fieldOf_head, fieldIs, Bool.true_and]
    decide
  · simp (disch := decide) only [writePort, before, beyond, fieldOf_head, withField]
    exact clearCounters_beyond (by simp [hlen]) ..

end

/-- The command code 0 of an event line is no command; the claims of its happening are served (R151, log 36). -/
theorem writeLine_noCommand (i : LineIdx) (rest : List Byte) (s : State) :
    validFields (.line i) 4 (0 :: rest) = true ∧ writeLine i 4 (0 :: rest) s = serveClaims s := by
  have before : ∀ field size, field < 4 → fieldOf 4 (0 :: rest) field size = none := fun _ _ h => fieldOf_before h
  constructor
  · simp (disch := decide) only [validFields, before, fieldOf_head, fieldIs, Bool.true_and]
    decide
  · simp (disch := decide) only [writeLine, before, fieldOf_head, withField]
    simp [EventLine.command]

/-- The number of records in the fault log is read-only (R163, R189). -/
theorem writeLogControl_readOnly {data : List Byte} (hlen : data.length = 4) (s : State) :
    validFields .logControl 0 data = true ∧ writeLogControl 0 data s = s := by
  have beyond : ∀ field size, 4 < field + size → fieldOf 0 data field size = none := fun _ _ h => fieldOf_beyond (by omega)
  constructor
  · simp (disch := decide) only [validFields, beyond, fieldIs]
  · simp (disch := decide) only [writeLogControl, beyond, withField]

/-- The command code 0 of router control is no command (R178). -/
theorem writeControl_noCommand (s : State) : writeControl 0x10 [0, 0, 0, 0] s = s := by
  have base : fieldOf 0x10 [0, 0, 0, 0] 0x00 8 = none := by decide
  have life : fieldOf 0x10 [0, 0, 0, 0] 0x08 4 = none := by decide
  have wait : fieldOf 0x10 [0, 0, 0, 0] 0x0C 4 = none := by decide
  have command : fieldOf 0x10 [0, 0, 0, 0] 0x10 4 = some 0 := by decide
  simp only [writeControl, base, life, wait, command, withField, Nat.zero_ne_one, if_false]

/-- The command code 0 of the fault log is no command (R164). -/
theorem writeLogControl_noCommand (s : State) : writeLogControl 8 [0, 0, 0, 0] s = s := by
  have count : fieldOf 8 [0, 0, 0, 0] 0x04 4 = none := by decide
  have command : fieldOf 8 [0, 0, 0, 0] 0x08 4 = some 0 := by decide
  simp only [writeLogControl, count, command, withField, Nat.zero_ne_one, if_false]

section
variable {s : State} (h : s.hostReady)
include h

/-- A taken WRITE without an effect leaves no claimant waiting. -/
theorem serveClaims_writeTaken : serveClaims s.writeTaken = s.writeTaken :=
  serveClaims_afterTaking h rfl rfl rfl rfl rfl fun _ => rfl

/-- A WRITE of the correct form to a read-only record has no effect (R174). -/
theorem hostWrite_readOnly {off : Nat} {data : List Byte} (ho : off < 0x10000) (h1 : 1 ≤ data.length) (h2 : data.length ≤ 64)
    {r : RecordId} (hoff : off % 4 = 0) (hlen : data.length % 4 = 0)
    (inside : r.offset ≤ off ∧ off + data.length ≤ r.offset + r.size)
    (readOnly : r = .identity ∨ r = .routerTime ∨ r = .logHead ∨ ∃ i, r = .view i) : hostWrite off data s = s.writeTaken := by
  have read := readForm_of_inside h1 hoff hlen inside
  have quiet := serveClaims_writeTaken h
  rcases readOnly with rfl | rfl | rfl | ⟨i, rfl⟩ <;>
    exact hostWrite_quiet h ho h1 h2 (writeForm_eq_some_iff.mpr ⟨read, by simp, by simp, by simp⟩) rfl rfl quiet

end

/-! ### Items of a port -/

section
variable (p : PortIdx) (s : State)

/-- The wake limit alone (R104). -/
theorem writePort_wakeLimit (a b x y : Byte) :
    validFields (.port p) 4 [a, b, x, y] = decide (10 ≤ (a ++ b : BitVec 16).toNat) ∧
      writePort p 4 [a, b, x, y] s = s.setPort p { s.port p with wakeLimit := a ++ b } := by
  have limit : fieldOf 4 [a, b, x, y] 0x04 2 = some (a ++ b : BitVec 16).toNat := congrArg some (beNat_two a b)
  have before : ∀ field size, field < 4 → fieldOf 4 [a, b, x, y] field size = none := fun _ _ h => fieldOf_before h
  have beyond : ∀ field size, 8 < field + size → fieldOf 4 [a, b, x, y] field size = none := fun _ _ h => fieldOf_beyond h
  constructor
  · have word : (a ++ b : BitVec 16).toNat ≤ 65535 := Nat.le_of_lt_succ (a ++ b : BitVec 16).isLt
    simp (disch := decide) only [validFields, before, beyond, limit, fieldIs, Bool.true_and, Bool.and_true, word, decide_true]
  · simp (disch := decide) only [writePort, before, beyond, limit, withField, BitVec.ofNat_toNat, BitVec.setWidth_eq,
      State.modPort_eq]
    exact clearCounters_beyond (by simp) ..

/-- The upstream offset alone, its first three bytes ignored (R104, R188). -/
theorem writePort_upOffset (a b c d e f g x : Byte) :
    validFields (.port p) 0x10 [a, b, c, d, e, f, g, x] = true ∧ writePort p 0x10 [a, b, c, d, e, f, g, x] s =
      s.setPort p { s.port p with upOffset := d ++ e ++ f ++ g ++ x } := by
  have offset : fieldOf 0x10 [a, b, c, d, e, f, g, x] 0x10 8 = some (beNat [a, b, c, d, e, f, g, x]) := rfl
  have low : BitVec.ofNat 40 (beNat [a, b, c, d, e, f, g, x]) = d ++ e ++ f ++ g ++ x := by
    rw [← ofNat_beNat_five, show [a, b, c, d, e, f, g, x] = [a, b, c] ++ [d, e, f, g, x] from rfl, beNat_append]
    apply BitVec.eq_of_toNat_eq
    simp
  have before : ∀ field size, field < 0x10 → fieldOf 0x10 [a, b, c, d, e, f, g, x] field size = none :=
    fun _ _ h => fieldOf_before h
  have beyond : ∀ field size, 0x18 < field + size → fieldOf 0x10 [a, b, c, d, e, f, g, x] field size = none :=
    fun _ _ h => fieldOf_beyond h
  constructor
  · simp (disch := decide) only [validFields, before, fieldIs, Bool.and_self]
  · simp (disch := decide) only [writePort, before, beyond, offset, low, withField, State.modPort_eq]
    exact clearCounters_beyond (by simp) ..

/-- An enable that is on already is left (R105). -/
theorem writeEnable_on (on : (s.port p).state ≠ .off) : writeEnable p true s = s := (if_pos rfl).trans (if_neg on)

/-- One WRITE that enables a port, replaces its interval and its wake limit and wakes it: the WAKE takes the new wake limit
(R106, R119). -/
theorem writePort_wake (y k a b r : Byte) :
    validFields (.port p) 0 [1, y, 0, k, a, b, 0, 0, 2, 0, 0, r] = decide (y.toNat ≤ 1 ∧ 10 ≤ (a ++ b : BitVec 16).toNat) ∧
      ((s.port p).state = .doze → writePort p 0 [1, y, 0, k, a, b, 0, 0, 2, 0, 0, r] s = s.setPort p { s.port p with
        upWriteEnable := y == 1, autoDoze := k.setWidth 16, wakeLimit := a ++ b, lastResult := .accepted, state := .waking
        wake := some (s.time + (a ++ b : BitVec 16).setWidth 32), answer := none, idle := none, dozeReqDue := false
        wakeDue := true, link := { (s.port p).link with syncAckDue := false } }) := by
  let data : List Byte := [1, y, 0, k, a, b, 0, 0, 2, 0, 0, r]
  have enable : fieldOf 0 data 0x00 1 = some 1 := rfl
  have upWrite : fieldOf 0 data 0x01 1 = some y.toNat := congrArg some (beNat_singleton y)
  have interval : fieldOf 0 data 0x02 2 = some k.toNat := congrArg some ((beNat_zero_cons [k]).trans (beNat_singleton k))
  have limit : fieldOf 0 data 0x04 2 = some (a ++ b : BitVec 16).toNat := congrArg some (beNat_two a b)
  have command : fieldOf 0 data 0x08 1 = some 2 := rfl
  have beyond : ∀ field size, 12 < field + size → fieldOf 0 data field size = none := fun _ _ h => fieldOf_beyond h
  refine ⟨?_, fun doze => ?_⟩
  · have byte : k.toNat ≤ 255 := Nat.le_of_lt_succ k.isLt
    have word : (a ++ b : BitVec 16).toNat ≤ 65535 := Nat.le_of_lt_succ (a ++ b : BitVec 16).isLt
    show validFields (.port p) 0 data = _
    simp only [validFields, enable, upWrite, interval, limit, command, fieldIs_some, byte, word, decide_true, Nat.le_refl,
      Nat.reduceLeDiff, Bool.and_true, Bool.true_and, Bool.decide_and]
  · have counters : ∀ u, clearCounters 0 data 0x1C (.branch p) u = u := fun u => clearCounters_beyond (by simp [data]) ..
    have commanded : ∀ u, portCommand p 2 u = commandWake p u := fun _ => rfl
    have number : BitVec.ofNat 16 k.toNat = k.setWidth 16 := BitVec.eq_of_toNat_eq (by simp)
    show writePort p 0 data s = _
    simp (disch := decide) only [writePort, enable, upWrite, interval, limit, command, beyond, counters, commanded, withField,
      decide_true, decide_toNat_eq_one]
    rw [writeEnable_on p s (by rw [doze]; decide)]
    simp [writeInterval_eq, commandWake, setResult, enterWaking, doze, number]

end

/-! ### The two fields of an event line and its command -/

section
variable (i : LineIdx) (x v c : Byte) (s : State)

theorem validFields_line : validFields (.line i) 0 [x, v, 0, 0, c, 0, 0, 0] = decide (x.toNat ≤ 1 ∧ c.toNat ≤ 2) := by
  have enable : fieldOf 0 [x, v, 0, 0, c, 0, 0, 0] 0x00 1 = some x.toNat := congrArg some (beNat_singleton x)
  have command : fieldOf 0 [x, v, 0, 0, c, 0, 0, 0] 0x04 1 = some c.toNat := congrArg some (beNat_singleton c)
  simp only [validFields, enable, command, fieldIs, Bool.decide_and]

/-- Enable and vector, the claims that then stand, and the command on the line as they leave it (R148, R151, log 19). -/
theorem writeLine_whole : writeLine i 0 [x, v, 0, 0, c, 0, 0, 0] s =
    let u := serveClaims (s.setLine i { s.line i with enable := x == 1, vector := v })
    serveClaims (u.setLine i ((u.line i).command c.toNat)) := by
  have enable : fieldOf 0 [x, v, 0, 0, c, 0, 0, 0] 0x00 1 = some x.toNat := congrArg some (beNat_singleton x)
  have vector : fieldOf 0 [x, v, 0, 0, c, 0, 0, 0] 0x01 1 = some v.toNat := congrArg some (beNat_singleton v)
  have command : fieldOf 0 [x, v, 0, 0, c, 0, 0, 0] 0x04 1 = some c.toNat := congrArg some (beNat_singleton c)
  simp only [writeLine, enable, vector, command, withField, decide_toNat_eq_one, State.line_setLine_self, State.setLine_setLine,
    byte, BitVec.ofNat_toNat, BitVec.setWidth_eq]

end

section
variable (l : EventLine)

theorem EventLine.command_none : l.command 0 = l := rfl

theorem EventLine.command_ack_notified (h : l.state = .notified) : l.command 1 = { l with state := .idle, arrivals := 0 } := by
  simp [EventLine.command, h]

theorem EventLine.command_ack_again (h : l.state = .again) : l.command 1 = { l with state := .pending, arrivals := 0 } := by
  simp [EventLine.command, h]

/-- An ACK of a line that the host was not notified of is ignored (R152). -/
theorem EventLine.command_ack_ignored (h : l.state = .idle ∨ l.state = .pending) : l.command 1 = l := by
  rcases h with h | h <;> simp [EventLine.command, h]

theorem EventLine.command_clear : l.command 2 = { l with state := .idle, arrivals := 0 } := rfl

end

/-- Once the arbiter has run no claimant waits, if the decoder claims nothing (R141). -/
theorem admitted_serveClaims {s : State} (hd : s.decoder.claim = .noClaim) : (serveClaims s).admitted := by
  intro free c
  rcases serveClaims_stuck s free with none | turn
  · exact claims_of_nextClaimant_none none c
  · have claim := nextClaimant_claims turn
    simp [State.claims, hd] at claim

/-- A line that is not eligible makes no claim (R148). -/
theorem admitted_setLine {s : State} (h : s.admitted) (i : LineIdx) {l : EventLine} (hl : l.eligible = false) :
    (s.setLine i l).admitted := by
  intro free c
  have before := h free
  cases c with
  | decoder => exact before .decoder
  | branch p => exact before (.branch p)
  | eventUnit =>
    have up : s.trunkState = .up := by
      simp only [State.generalFree, Bool.and_eq_true, beq_iff_eq] at free
      exact free.1
    have none : s.nextLine = none := by simpa [State.claims, up] using before .eventUnit
    simp only [State.claims, State.nextLine, Bool.and_eq_false_iff, Option.isSome_eq_false_iff, Option.isNone_iff_eq_none,
      List.find?_eq_none] at none ⊢
    refine .inr fun k hk => ?_
    rw [State.line_setLine]
    split
    · simp [hl]
    · exact none k hk

/-! ### Router control and the fault log -/

/-- The dropped count and a POP in one WRITE (R163, R164). -/
theorem writeLogControl_whole (d e f g : Byte) (s : State) :
    validFields .logControl 4 [d, e, f, g, 0, 0, 0, 1] = true ∧
      writeLogControl 4 [d, e, f, g, 0, 0, 0, 1] s = { s with dropped := 0, faultLog := s.faultLog.tail } := by
  have count : fieldOf 4 [d, e, f, g, 0, 0, 0, 1] 0x04 4 = some (beNat [d, e, f, g]) := rfl
  have command : fieldOf 4 [d, e, f, g, 0, 0, 0, 1] 0x08 4 = some 1 := rfl
  constructor
  · simp only [validFields, command, fieldIs]
    decide
  · simp only [writeLogControl, count, command, withField, if_true, popLog]

/-- A word with two bytes of zero below it. -/
theorem toNat_append_zeros {n : Nat} (u : BitVec n) : (u ++ (0 : BitVec 16)).toNat = u.toNat * 0x10000 := by
  simp [BitVec.toNat_append, Nat.shiftLeft_eq]

/-- The whole router control record in one WRITE: the fields, then the command (R177, R178). -/
theorem writeControl_whole (a b c x y z w v : Byte) (s : State) (life : 16 ≤ (x ++ y : BitVec 16).toNat) :
    let data : List Byte := [0, 0, 0, a, b, c, 0, 0, 0, 0, x, y, 0, 0, z, w, 0, 0, 0, v]
    let u : State := { s with
      apertureBase := a ++ b ++ c ++ (0 : BitVec 16), ticketLifetime := (x ++ y : BitVec 16).setWidth 32
      headWaitLimit := (z ++ w : BitVec 16).setWidth 32 }
    validFields .control 0 data = decide (v.toNat ≤ 1) ∧
      writeControl 0 data s = if v.toNat = 1 then clearRouter u else u := by
  intro data u
  have base : fieldOf 0 data 0x00 8 = some (a ++ b ++ c ++ (0 : BitVec 16)).toNat := by
    have spelled : beNat [0, 0, 0, a, b, c, 0, 0] = (a ++ b ++ c ++ (0 : BitVec 16)).toNat := by
      have zero : (0 : Byte).toNat = 0 := rfl
      simp only [toNat_append_zeros, toNat_append_byte, beNat, List.foldl_cons, List.foldl_nil, zero]
      omega
    exact congrArg some spelled
  have lifetime : fieldOf 0 data 0x08 4 = some (x ++ y : BitVec 16).toNat :=
    congrArg some ((beNat_zero_cons _).trans ((beNat_zero_cons _).trans (beNat_two x y)))
  have wait : fieldOf 0 data 0x0C 4 = some (z ++ w : BitVec 16).toNat :=
    congrArg some ((beNat_zero_cons _).trans ((beNat_zero_cons _).trans (beNat_two z w)))
  have command : fieldOf 0 data 0x10 4 = some v.toNat :=
    congrArg some ((beNat_zero_cons _).trans ((beNat_zero_cons _).trans ((beNat_zero_cons _).trans (beNat_singleton v))))
  constructor
  · have boundary := apertureBase_iff.mpr ⟨(a ++ b ++ c ++ (0 : BitVec 16)).isLt,
      (congrArg (· % 0x10000) (toNat_append_zeros _)).trans (Nat.mul_mod_left ..)⟩
    have lifeWord : (x ++ y : BitVec 16).toNat ≤ 1048575 := by
      have := (x ++ y : BitVec 16).isLt
      omega
    have waitWord : (z ++ w : BitVec 16).toNat ≤ 65535 := Nat.le_of_lt_succ (z ++ w : BitVec 16).isLt
    simp only [validFields, base, lifetime, wait, command, boundary, fieldIs_some, life, lifeWord, waitWord, decide_true,
      Bool.and_true, Bool.true_and]
  · simp only [writeControl, base, lifetime, wait, command, withField, BitVec.ofNat_toNat, BitVec.setWidth_eq]
    rfl

/-! ### WRITEs that are discarded -/

/-- The state once a WRITE at an offset outside the window records is discarded with MGMT_FORM (R173). -/
def State.mgmtRefused (s : State) (off : Nat) : State :=
  recordFault .mgmtForm .management none none (some (s.apertureBase + BitVec.ofNat 40 off)) none s.writeTaken

section
variable {s : State} (h : s.hostReady) {off : Nat} {data : List Byte}
include h

/-- A WRITE of one of the forms of R171 that fails is discarded with MGMT_FORM. -/
theorem hostWrite_badForm (ho : off < 0x10000) (h1 : 1 ≤ data.length) (h2 : data.length ≤ 64)
    (bad : let inside := fun (r : RecordId) => r.offset ≤ off ∧ off + data.length ≤ r.offset + r.size
      off % 4 ≠ 0 ∨ data.length % 4 ≠ 0 ∨ (∀ r, ¬inside r) ∨
      (∃ w, inside (.window w) ∧ ¬(off = 0x2000 + 0x20 * w.val ∧ data.length = 32)) ∨
      (inside .control ∧ off < 0x48 ∧ ¬(off = 0x40 ∧ 8 ≤ data.length)) ∨
      (∃ p, inside (.port p) ∧ off < 0x1000 + 0x100 * p.val + 0x18 ∧ 0x1000 + 0x100 * p.val + 0x10 < off + data.length ∧
        ¬(off ≤ 0x1000 + 0x100 * p.val + 0x10 ∧ 0x1000 + 0x100 * p.val + 0x18 ≤ off + data.length))) :
    hostWrite off data s = recordFault .mgmtForm .management (windowAt off) none
      (some (s.apertureBase + BitVec.ofNat 40 off)) none s.writeTaken := by
  refine hostWrite_refused h ho h1 h2 fun r k form => False.elim ?_
  obtain ⟨read, window, control, port⟩ := writeForm_eq_some_iff.mp form
  obtain ⟨hoff, hlen, low, high, rfl⟩ := (readForm_eq_some_iff h1).mp read
  have same : ∀ x : RecordId, x.offset ≤ off ∧ off + data.length ≤ x.offset + x.size → r = x :=
    fun x inside => record_unique h1 ⟨low, high⟩ inside
  rcases bad with bad | bad | bad | ⟨w, inside, bad⟩ | ⟨inside, bad⟩ | ⟨p, inside, bad⟩
  · exact bad hoff
  · exact bad hlen
  · exact bad r ⟨low, high⟩
  · obtain rfl := same _ inside
    have whole := window w rfl
    simp only [RecordId.offset] at low whole
    omega
  · obtain rfl := same _ inside
    have whole := wholeField_iff.mp (control rfl)
    simp only [RecordId.offset] at low whole
    omega
  · obtain rfl := same _ inside
    have whole := wholeField_iff.mp (port p rfl)
    simp only [RecordId.offset] at low whole
    omega

/-- A WRITE inside a record that carries a value out of its range is discarded with MGMT_FORM, whatever its form. -/
theorem hostWrite_outOfRange (ho : off < 0x10000) (h1 : 1 ≤ data.length) (h2 : data.length ≤ 64) {r : RecordId}
    (inside : r.offset ≤ off ∧ off + data.length ≤ r.offset + r.size) (noWindow : windowAt off = none)
    (bad : off % 4 = 0 → data.length % 4 = 0 → writeForm off data.length = some (r, off - r.offset) →
      validFields r (off - r.offset) data = false) :
    hostWrite off data s = s.mgmtRefused off := by
  rw [State.mgmtRefused, ← noWindow]
  refine hostWrite_refused h ho h1 h2 fun x k form => ?_
  obtain ⟨read, _, _, _⟩ := writeForm_eq_some_iff.mp form
  obtain ⟨hoff, hlen, low, high, rfl⟩ := (readForm_eq_some_iff h1).mp read
  obtain rfl := record_unique h1 ⟨low, high⟩ inside
  exact bad hoff hlen form

section
variable (ho : off < 0x10000) (h1 : 1 ≤ data.length) (h2 : data.length ≤ 64)
include ho h1 h2

/-- Router control is refused for a value out of its range (R172, R177, R178). -/
theorem hostWrite_badControl
    (inside : RecordId.control.offset ≤ off ∧ off + data.length ≤ RecordId.control.offset + RecordId.control.size)
    (bad : badControl off data) : hostWrite off data s = s.mgmtRefused off := by
  refine hostWrite_outOfRange h ho h1 h2 inside (if_neg ?_) fun hoff hlen form => ?_
  · simp only [RecordId.offset, RecordId.size] at inside
    omega
  · obtain ⟨_, _, whole, _⟩ := writeForm_eq_some_iff.mp form
    exact validFields_control_eq_false hoff hlen inside.1 (whole rfl) bad

/-- A branch port record is refused for a value out of its range (R104, R106, R172). -/
theorem hostWrite_badPort {p : PortIdx}
    (inside : (RecordId.port p).offset ≤ off ∧ off + data.length ≤ (RecordId.port p).offset + (RecordId.port p).size)
    (bad : badPort off data p) : hostWrite off data s = s.mgmtRefused off := by
  refine hostWrite_outOfRange h ho h1 h2 inside (if_neg ?_) fun hoff hlen _ =>
    validFields_port_eq_false hoff hlen inside.1 bad
  simp only [RecordId.offset, RecordId.size] at inside
  omega

/-- An event line record is refused for a value out of its range (R151, R172). -/
theorem hostWrite_badLine {i : LineIdx}
    (inside : (RecordId.line i).offset ≤ off ∧ off + data.length ≤ (RecordId.line i).offset + (RecordId.line i).size)
    (bad : badLine off data i) : hostWrite off data s = s.mgmtRefused off := by
  refine hostWrite_outOfRange h ho h1 h2 inside (if_neg ?_) fun hoff hlen _ =>
    validFields_line_eq_false hoff hlen inside.1 bad
  simp only [RecordId.offset] at inside
  omega

/-- The fault log control record is refused for a command code out of its range (R164, R172). -/
theorem hostWrite_badLogControl
    (inside : RecordId.logControl.offset ≤ off ∧ off + data.length ≤ RecordId.logControl.offset + RecordId.logControl.size)
    (bad : badLogControl off data) : hostWrite off data s = s.mgmtRefused off := by
  refine hostWrite_outOfRange h ho h1 h2 inside (if_neg ?_) fun hoff hlen _ =>
    validFields_logControl_eq_false hoff hlen inside.1 bad
  simp only [RecordId.offset] at inside
  omega

end

/-! ### Groups and records written at a free decoder -/

/-- The groups that hold only read-only or reserved bytes, and the command code 0 alone, have no effect (R106, R151, R174,
R178). -/
theorem hostWrite_idleGroup (ho : off < 0x10000) (h1 : 1 ≤ data.length) (h2 : data.length ≤ 64)
    (idle : (∃ p : PortIdx, let port := 0x1000 + 0x100 * p.val
        data.length = 4 ∧ (off = port + 0x0C ∨ off = port + 0x18 ∨ off = port + 8 ∧ data.head? = some 0)) ∨
      off % 4 = 0 ∧ data.length % 4 = 0 ∧ 0x1400 ≤ off ∧ off + data.length ≤ 0x1408 ∨ off = 0x5020 ∧ data.length = 4 ∨
      (∃ i : LineIdx, off = 0x4000 + 8 * i.val + 4 ∧ data.length = 4 ∧ data.head? = some 0) ∨
      (off = 0x50 ∨ off = 0x5028) ∧ data = [0, 0, 0, 0]) : hostWrite off data s = s.writeTaken := by
  have quiet := serveClaims_writeTaken h
  rcases idle with ⟨p, hlen, idle⟩ | ⟨hoff, hlen, low, high⟩ | ⟨rfl, hlen⟩ | ⟨i, rfl, hlen, code⟩ | ⟨rfl | rfl, rfl⟩
  · have group : ∀ {k : Nat}, writeForm ((RecordId.port p).offset + k) 4 = some (.port p, k) →
        off = (RecordId.port p).offset + k →
        validFields (.port p) k data = true ∧ writePort p k data s.writeTaken = s.writeTaken →
        hostWrite off data s = s.writeTaken :=
      fun form start ⟨valid, effect⟩ => hostWrite_quiet h ho h1 h2 (by rw [start, hlen]; exact form) valid effect quiet
    rcases idle with start | start | ⟨start, code⟩
    · exact group (writeForm_portGroups p (by decide) rfl rfl (by decide) rfl) start (writePort_reserved (.inl rfl) hlen _)
    · exact group (writeForm_portGroups p (by decide) rfl rfl (by decide) rfl) start (writePort_reserved (.inr rfl) hlen _)
    · obtain ⟨rest, rfl⟩ := List.head?_eq_some_iff.mp code
      exact group (writeForm_portGroups p (by decide) rfl rfl (by decide) rfl) start
        (writePort_noCommand (Nat.succ.inj hlen) _)
  · have read := readForm_of_inside (r := .trunk) h1 hoff hlen ⟨low, by simp only [RecordId.offset, RecordId.size]; omega⟩
    exact hostWrite_quiet h ho h1 h2 (writeForm_eq_some_iff.mpr ⟨read, by simp, by simp, by simp⟩) rfl
      (clearCounters_beyond (by simp only [RecordId.offset]; omega) ..) quiet
  · obtain ⟨valid, effect⟩ := writeLogControl_readOnly hlen s.writeTaken
    exact hostWrite_quiet h ho h1 h2 (r := .logControl) (by rw [hlen]; decide) valid effect quiet
  · obtain ⟨rest, rfl⟩ := List.head?_eq_some_iff.mp code
    obtain ⟨valid, effect⟩ := writeLine_noCommand i rest s.writeTaken
    exact hostWrite_quiet h ho h1 h2 (by rw [hlen]; exact writeForm_lineGroups i (by decide) rfl rfl (by decide)) valid
      (effect.trans quiet) quiet
  · exact hostWrite_quiet h ho h1 h2 (r := .control) (k := 0x10) (by decide) (by decide)
      (by simp only [applyRecord, writeControl_noCommand]) quiet
  · exact hostWrite_quiet h ho h1 h2 (r := .logControl) (k := 8) (by decide) (by decide)
      (by simp only [applyRecord, writeLogControl_noCommand]) quiet

/-- Enable, vector and command of an event line in one WRITE: the command acts on the line as the new enable leaves it, once its
claim is served (R151 to R153, log 19). -/
theorem hostWrite_line (i : LineIdx) (x v c : Byte) (hx : x.toNat ≤ 1) (hc : c.toNat ≤ 2) :
    let u := serveClaims (s.writeTaken.setLine i { s.line i with enable := x == 1, vector := v })
    hostWrite (RecordId.line i).offset [x, v, 0, 0, c, 0, 0, 0] s =
      serveClaims (u.setLine i ((u.line i).command c.toNat)) := by
  intro u
  have low : (RecordId.line i).offset < 0x10000 := by
    have := i.isLt
    simp only [RecordId.offset]
    omega
  have form : writeForm (RecordId.line i).offset 8 = some (.line i, 0) :=
    writeForm_lineGroups i (k := 0) (by decide) rfl rfl (by decide)
  rw [hostWrite_applied (data := [x, v, 0, 0, c, 0, 0, 0]) h low (by simp) (by simp) form
    ((validFields_line i x v c).trans (decide_eq_true ⟨hx, hc⟩))]
  simp only [applyRecord, writeLine_whole, serveClaims_serveClaims]
  rfl

/-- The whole router control record in one WRITE at a free decoder (R177, R178). -/
theorem hostWrite_control (a b c x y z w v : Byte) (life : 16 ≤ (x ++ y : BitVec 16).toNat) (hv : v.toNat ≤ 1) :
    let u : State := { s.writeTaken with
      apertureBase := a ++ b ++ c ++ (0 : BitVec 16), ticketLifetime := (x ++ y : BitVec 16).setWidth 32
      headWaitLimit := (z ++ w : BitVec 16).setWidth 32 }
    hostWrite 0x40 [0, 0, 0, a, b, c, 0, 0, 0, 0, x, y, 0, 0, z, w, 0, 0, 0, v] s =
      if v.toNat = 1 then clearRouter u else u := by
  intro u
  obtain ⟨valid, effect⟩ := writeControl_whole a b c x y z w v s.writeTaken life
  have form : writeForm 0x40 20 = some (.control, 0) := by decide
  rw [hostWrite_applied (data := [0, 0, 0, a, b, c, 0, 0, 0, 0, x, y, 0, 0, z, w, 0, 0, 0, v]) h (by decide) (by simp)
    (by simp) form (valid.trans (decide_eq_true hv))]
  simp only [applyRecord, effect]
  split
  · exact serveClaims_of_admitted (admitted_of_idle rfl (fun p => by rw [port_clearRouter]; rfl)
      fun i => by rw [line_clearRouter]; rfl)
  · exact serveClaims_afterTaking h rfl rfl rfl rfl rfl fun _ => rfl

/-- ROUTER RESET keeps the aperture base that stands and restores the other two control fields (R180, R181). -/
theorem exec_routerReset_fields {base : HostAddr} (aligned : base.toNat % 0x10000 = 0) (life wait : Time) :
    exec .routerReset { s with apertureBase := base } = .next (clearRouter { s.writeTaken with
      apertureBase := base, ticketLifetime := life, headWaitLimit := wait }) := by
  obtain ⟨powered, signal, up, empty, admitted, _⟩ := h
  have ready : ({ s with apertureBase := base } : State).hostReady := ⟨powered, signal, up, empty, admitted, aligned⟩
  exact (routerResetClearsTheRouter _ ready).trans rfl

end

/-! ### The statement -/

/-- Settles O51: each WRITE by its form, by the values that it carries, or by the fields of its record in their order. -/
theorem managementWriteForms : Obligations.ManagementWriteForms := by
  unfold Obligations.ManagementWriteForms
  intro s off data h h1 h2 go len inside
  have ho : off.toNat < 0x10000 := off.isLt
  have address : s.apertureBase + off.setWidth 40 = s.apertureBase + BitVec.ofNat 40 off.toNat := by rw [BitVec.ofNat_toNat]
  have done : ∀ {u : State}, hostWrite off.toNat data s = u → go = .next u := fun e => congrArg Host.Outcome.next e
  refine ⟨fun bad => ?_, fun hoff hlen readOnly => ?_, fun idle => done (hostWrite_idleGroup h ho h1 h2 idle),
    fun p a b x y hoff hdata limit => ?_, fun p a b c d e f g x hoff hdata => ?_, ?_,
    fun p y k a b r hoff hdata hy limit doze => ?_, fun i x v c hoff hdata hx => ?_, fun d e f g hoff hdata => ?_,
    fun a b c x y z w v hoff hdata life => ?_⟩
  · rw [address]
    exact done (hostWrite_badForm h ho h1 h2 bad)
  · rcases readOnly with within | within | within | ⟨i, within⟩ <;>
      exact done (hostWrite_readOnly h ho h1 h2 hoff hlen within (by simp))
  · subst hdata
    obtain ⟨valid, effect⟩ := writePort_wakeLimit p s.writeTaken a b x y
    refine done (hostWrite_quiet h ho h1 h2 ?_ (valid.trans (decide_eq_true limit)) effect
      (serveClaims_setPort_writeTaken h rfl))
    rw [hoff]
    exact writeForm_portGroups p (k := 4) (len := 4) (by decide) rfl rfl (by decide) rfl
  · subst hdata
    obtain ⟨valid, effect⟩ := writePort_upOffset p s.writeTaken a b c d e f g x
    refine done (hostWrite_quiet h ho h1 h2 ?_ valid effect (serveClaims_setPort_writeTaken h rfl))
    rw [hoff]
    exact writeForm_portGroups p (k := 0x10) (len := 8) (by decide) rfl rfl (by decide) rfl
  · intro bad covers one two four value
    have refused : hostWrite off.toNat data s = s.mgmtRefused off.toNat → go = bad :=
      fun e => (done e).trans (by rw [State.mgmtRefused, ← address])
    rcases value with ⟨⟨within, _⟩, start, value⟩ | ⟨⟨within, here⟩, value⟩ | ⟨⟨within, here⟩, value⟩ |
      ⟨⟨within, here⟩, value⟩ | ⟨⟨within, here⟩, value⟩ |
      ⟨p, ⟨⟨within, here⟩, value⟩ | ⟨⟨within, here⟩, value⟩ | ⟨⟨within, here⟩, value⟩⟩ |
      ⟨i, ⟨⟨within, here⟩, value⟩ | ⟨⟨within, here⟩, value⟩⟩
    · exact refused (hostWrite_badControl h ho h1 h2 within (.inl ⟨start, h1, value⟩))
    · exact refused (hostWrite_badControl h ho h1 h2 within (.inr (.inl ⟨here, value⟩)))
    · exact refused (hostWrite_badControl h ho h1 h2 within (.inr (.inr (.inl ⟨here, value⟩))))
    · exact refused (hostWrite_badControl h ho h1 h2 within (.inr (.inr (.inr ⟨here, value⟩))))
    · exact refused (hostWrite_badLogControl h ho h1 h2 within ⟨here, value⟩)
    · exact refused (hostWrite_badPort h ho h1 h2 within (.inl ⟨here, value⟩))
    · exact refused (hostWrite_badPort h ho h1 h2 within (.inr (.inl ⟨here, value⟩)))
    · exact refused (hostWrite_badPort h ho h1 h2 within (.inr (.inr ⟨here, value⟩)))
    · exact refused (hostWrite_badLine h ho h1 h2 within (.inl ⟨here, value⟩))
    · exact refused (hostWrite_badLine h ho h1 h2 within (.inr ⟨here, value⟩))
  · subst hdata
    obtain ⟨valid, effect⟩ := writePort_wake p s.writeTaken y k a b r
    refine done (hostWrite_quiet h ho h1 h2 ?_ (valid.trans (decide_eq_true ⟨hy, limit⟩)) (effect doze)
      (serveClaims_setPort_writeTaken h rfl))
    rw [hoff]
    exact writeForm_portGroups p (k := 0) (len := 12) (by decide) rfl rfl (by decide) rfl
  · subst hdata
    intro u l
    have free : (s.writeTaken.setLine i { s.line i with enable := x == 1, vector := v }).decoder.claim = .noClaim := rfl
    have kept : serveClaims (u.setLine i l) = u := (congrArg serveClaims (u.setLine_line i)).trans (serveClaims_serveClaims _)
    have idled : ∀ m : EventLine, m.state = .idle → serveClaims (u.setLine i m) = u.setLine i m := fun m hm =>
      serveClaims_of_admitted (admitted_setLine (admitted_serveClaims free) i (by simp [EventLine.eligible, hm]))
    have run : ∀ {m : EventLine} {t : State}, c.toNat ≤ 2 → l.command c.toNat = m → serveClaims (u.setLine i m) = t →
        go = .next t := by
      rintro m t hc rfl rfl
      exact done ((congrArg (hostWrite · [x, v, 0, 0, c, 0, 0, 0] s) hoff).trans (hostWrite_line h i x v c hx hc))
    refine ⟨?_, ?_, ?_, ?_, ?_⟩
    · rintro rfl
      exact run (by decide) l.command_none kept
    · rintro rfl state
      exact run (by decide) (l.command_ack_notified state) (idled _ rfl)
    · rintro rfl state
      exact run (by decide) (l.command_ack_again state) rfl
    · rintro rfl state
      exact run (by decide) (l.command_ack_ignored state) kept
    · rintro rfl
      exact run (by decide) l.command_clear (idled _ rfl)
  · subst hdata
    obtain ⟨valid, effect⟩ := writeLogControl_whole d e f g s.writeTaken
    refine done (hostWrite_quiet h ho h1 h2 (r := .logControl) (k := 4) ?_ valid effect
      (serveClaims_afterTaking h rfl rfl rfl rfl rfl fun _ => rfl))
    rw [hoff]
    show writeForm 0x5024 8 = _
    decide
  · subst hdata
    intro base
    have aligned : base.toNat % 0x10000 = 0 := (congrArg (· % 0x10000) (toNat_append_zeros _)).trans (Nat.mul_mod_left ..)
    have run : v.toNat ≤ 1 → _ := fun hv => done ((congrArg (hostWrite · _ s) hoff).trans
      (hostWrite_control h a b c x y z w v life hv))
    refine ⟨?_, ?_⟩
    · rintro rfl
      exact run (by decide)
    · rintro rfl
      exact (run (by decide)).trans (exec_routerReset_fields h aligned _ _).symm

end Sys2Proof.Machine
end

section
/-! The head of the trunk ingress queue and the claims on the general queue (O56): what leaves the decoder and its frames
(`SameHead`), what leaves the resources that a waiting head lacks (`patient_of_unmoved`), and the decoder's run, which stops
only where neither a claimant nor the head waits in vain. -/

namespace Sys2Proof.Machine

-- The theorems are checked one after the other, which bounds the memory that the check takes.
set_option Elab.async false

/-! ### The decoder and its frames -/

/-- The frames of the trunk ingress queue and the decoder's items are as they were. -/
structure SameHead (s t : State) : Prop where
  ingress : t.ingress = s.ingress := by rfl
  decoder : t.decoder = s.decoder := by rfl

theorem SameHead.refl (s : State) : SameHead s s := {}

theorem SameHead.trans {s t u : State} (h : SameHead s t) (k : SameHead t u) : SameHead s u :=
  ⟨k.ingress.trans h.ingress, k.decoder.trans h.decoder⟩

theorem BranchSide.sameHead {s t : State} (h : BranchSide s t) : SameHead s t := ⟨h.ingress, h.decoder⟩

theorem sameHead_modLink (l : Link) (f : LinkEnd → LinkEnd) (s : State) : SameHead s (s.modLink l f) :=
  ⟨State.setLink_ingress .., State.setLink_decoder ..⟩

theorem sameHead_dueSync (l : Link) (s : State) : SameHead s (dueSync l s) := by
  unfold dueSync sendSync
  split <;> exact sameHead_modLink ..

theorem sameHead_startTraining (l : Link) (s : State) : SameHead s (startTraining l s) := by
  have training : SameHead s (setTraining l s) := by cases l <;> exact {}
  exact training.trans ((sameHead_modLink ..).trans (sameHead_dueSync ..))

theorem sameHead_openPort (p : PortIdx) (s : State) : SameHead s (grantWindows p (startTraining (.branch p) s)) :=
  (sameHead_startTraining ..).trans (grantWindows_branchSide ..).sameHead

theorem sameHead_recordFault (k : FaultKind) (src : FaultSource) (w : Option WindowIdx) (t : Option (BitVec 6))
    (a : Option HostAddr) (c : Option FaultCount) (s : State) : SameHead s (recordFault k src w t a c s) :=
  (recordFault_branchSide ..).sameHead

theorem sameHead_serveClaims (s : State) : SameHead s (serveClaims s) := ⟨serveClaims_ingress s, serveClaims_decoder s⟩

/-! ### What a management WRITE leaves -/

theorem sameHead_withField {v : Option Nat} {f : Nat → State → State} (h : ∀ n s, SameHead s (f n s)) (s : State) :
    SameHead s (withField v f s) := by
  cases v with
  | none => exact .refl s
  | some n => exact h n s

theorem sameHead_endAllHeld (w : WindowIdx) (st : Status) (k : FaultKind) (s : State) :
    SameHead s (endAllHeld w st k s) := by
  have ended : ∀ (l : List Held) (u : State), SameHead u (l.foldl (fun u h => endHeld st h u) u) := by
    intro l
    induction l with
    | nil => exact fun u => .refl u
    | cons h l ih => exact fun u => (endHeld_branchSide st h u).sameHead.trans (ih _)
  have emptied : SameHead s (s.setHoldList w []) := {}
  unfold endAllHeld
  simp only
  split
  · exact emptied.trans (ended ..)
  · exact emptied.trans ((ended ..).trans (sameHead_recordFault ..))

theorem sameHead_writeWindow (w : WindowIdx) (data : List Byte) (a : HostAddr) (s : State) :
    SameHead s (writeWindow w data a s) := by
  unfold writeWindow
  split
  · rename_i r _
    have written : SameHead s (s.setWindow w r) := {}
    unfold applyWindow
    simp only
    split
    · split
      · exact written.trans ((examineHeads_branchSide ..).trans (grantWindows_branchSide ..)).sameHead
      · exact written
      · exact written.trans (sameHead_endAllHeld ..)
    · exact written.trans (sameHead_endAllHeld ..)
  · exact sameHead_recordFault ..

theorem sameHead_writeControl (at' : Nat) (data : List Byte) (s : State) : SameHead s (writeControl at' data s) := by
  have cleared : ∀ u, SameHead u (clearRouter u) := fun _ => {}
  unfold writeControl
  refine (sameHead_withField (fun _ _ => {}) s).trans ((sameHead_withField (fun _ _ => {}) _).trans
    ((sameHead_withField (fun _ _ => {}) _).trans (sameHead_withField (fun _ u => ?_) _)))
  split
  · exact cleared u
  · exact .refl u

theorem sameHead_clearCounters (at' : Nat) (data : List Byte) (base : Nat) (l : Link) (s : State) :
    SameHead s (clearCounters at' data base l s) := by
  have cleared : ∀ field f u, SameHead u (clearCounter at' data field f l u) := fun _ _ u =>
    sameHead_withField (fun _ _ => sameHead_modLink ..) u
  unfold clearCounters
  exact (cleared ..).trans ((cleared ..).trans ((cleared ..).trans (cleared ..)))

theorem sameHead_writeEnable (p : PortIdx) (on : Bool) (s : State) : SameHead s (writeEnable p on s) := by
  unfold writeEnable
  split
  · split
    · exact sameHead_openPort p s
    · exact .refl s
  · split
    · exact .refl s
    · exact (portDown_branchSide ..).sameHead

theorem sameHead_portCommand (p : PortIdx) (code : Nat) (s : State) : SameHead s (portCommand p code s) := by
  have result : ∀ r, SameHead s (setResult p r s) := fun _ => {}
  unfold portCommand commandDoze commandWake commandReset
  split
  · split
    · simp only
      split <;> exact {}
    · exact result _
  · split
    · split <;> exact {}
    · split
      · split
        · exact result _
        · exact (result .accepted).trans ((portDown_branchSide ..).sameHead.trans (sameHead_openPort p _))
      · exact .refl s

theorem sameHead_writePort (p : PortIdx) (at' : Nat) (data : List Byte) (s : State) :
    SameHead s (writePort p at' data s) := by
  have interval : ∀ k u, SameHead u (writeInterval p k u) := fun k u => by rw [writeInterval_eq]; exact {}
  unfold writePort
  exact (sameHead_withField (fun _ _ => sameHead_writeEnable ..) s).trans ((sameHead_withField (fun _ _ => {}) _).trans
    ((sameHead_withField (fun _ _ => interval ..) _).trans ((sameHead_withField (fun _ _ => {}) _).trans
      ((sameHead_withField (fun _ _ => {}) _).trans ((sameHead_clearCounters ..).trans
        ((sameHead_withField (fun _ _ => {}) _).trans (sameHead_withField (fun _ _ => sameHead_portCommand ..) _)))))))

theorem sameHead_writeLine (i : LineIdx) (at' : Nat) (data : List Byte) (s : State) :
    SameHead s (writeLine i at' data s) := by
  unfold writeLine
  exact (sameHead_withField (fun _ _ => {}) s).trans ((sameHead_withField (fun _ _ => {}) _).trans
    ((sameHead_serveClaims _).trans ((sameHead_withField (fun _ _ => {}) _).trans (sameHead_serveClaims _))))

theorem sameHead_writeLogControl (at' : Nat) (data : List Byte) (s : State) :
    SameHead s (writeLogControl at' data s) := by
  unfold writeLogControl
  refine (sameHead_withField (fun _ _ => {}) s).trans (sameHead_withField (fun _ u => ?_) _)
  split <;> exact {}

/-- A management WRITE acts on no frame that waits (R172 to R174). -/
theorem sameHead_manageWrite (a : HostAddr) (data : List Byte) (s : State) : SameHead s (manageWrite a data s) := by
  unfold manageWrite
  simp only
  split
  · split
    · rename_i r at' _ _
      cases r with
      | window w => exact sameHead_writeWindow ..
      | control => exact sameHead_writeControl ..
      | port p => exact sameHead_writePort ..
      | trunk => exact sameHead_clearCounters ..
      | line i => exact sameHead_writeLine ..
      | logControl => exact sameHead_writeLogControl ..
      | identity | routerTime | view i | logHead => exact .refl s
    · exact sameHead_recordFault ..
  · exact sameHead_recordFault ..

theorem sameHead_manageRead (t : BitVec 6) (a : HostAddr) (n : Nat) (s : State) : SameHead s (manageRead t a n s) := by
  have placed : ∀ f, SameHead s (placeGeneral f { s with arbLast := .decoder }) := fun _ => {}
  unfold manageRead
  simp only
  split
  · exact placed _
  · exact (placed _).trans (sameHead_recordFault ..)

/-! ### The taking of a frame -/

theorem sameHead_allocateFree {f : HostFrame} {t : BitVec 6} {w : Option WindowIdx} {st : Stage}
    {next : EntryIdx → State → State} (h : ∀ i u, SameHead u (next i u)) (s : State) :
    SameHead s (allocateFree f t w st next s) := by
  unfold allocateFree
  split
  · exact SameHead.trans {} (h _ _)
  · exact .refl s

/-- What becomes of a taken frame leaves the decoder without a head, and the frames behind it. -/
theorem sameHead_takeFate (f : HostFrame) (d : Fate) (s : State) : SameHead s (takeFate f d s) := by
  cases d with
  | reuse => exact sameHead_recordFault ..
  | management =>
    simp only [takeFate]
    split
    · exact sameHead_manageRead ..
    · exact sameHead_manageWrite ..
  | failed k st w =>
    simp only [takeFate, takeFailed]
    refine SameHead.trans ?_ (sameHead_recordFault ..)
    split
    · exact sameHead_allocateFree (fun _ _ => {}) s
    · exact .refl s
  | toHold w =>
    simp only [takeFate, takeHold]
    split
    · exact sameHead_allocateFree (fun _ _ => {}) s
    · exact {}
  | toQueue w =>
    simp only [takeFate, takeQueue]
    split
    · exact sameHead_allocateFree (fun _ _ => (placeEgress_branchSide ..).sameHead) s
    · exact (placeEgress_branchSide ..).sameHead

/-! ### The decoder's run -/

/-- A decoder without a head has no deadline and no claim (R60). -/
def State.headless (s : State) : Prop := s.ingress = [] → s.decoder.deadline = none ∧ s.decoder.claim = .noClaim

theorem headless_of_headWaits {s : State} (h : s.headWaits) : s.headless := by
  intro hi
  simpa only [State.headWaits, hi] using h

theorem headWaits_of_empty {s : State} (h : s.headless) (hi : s.ingress = []) : s.headWaits := by
  simpa only [State.headWaits, hi] using h hi

theorem headless_of_clear {s : State} (h : s.decoder = .clear) : s.headless := fun _ => by rw [h]; exact ⟨rfl, rfl⟩

theorem SameHead.headless {s t : State} (h : SameHead s t) (hs : s.headless) : t.headless := by
  unfold State.headless
  rw [h.ingress, h.decoder]
  exact hs

/-- A taken frame leaves the decoder without a head, and the queue one frame shorter. -/
theorem takeFrame_head (f : HostFrame) (d : Fate) (s : State) :
    (takeFrame f d s).ingress = s.ingress.tail ∧ (takeFrame f d s).decoder = .clear := by
  have taken := sameHead_takeFate f d (popHead f s)
  rw [popHead_eq] at taken
  unfold takeFrame
  rw [popHead_eq]
  exact ⟨taken.ingress, taken.decoder⟩

/-- The arbiter's run leaves no claimant waiting for a free slot, unless it is the decoder's turn (R141). -/
theorem admitted_serveClaims_of {s : State} (h : (serveClaims s).generalFree = true → s.claims .decoder = false) :
    (serveClaims s).admitted := by
  intro hg
  rcases serveClaims_stuck s hg with none | decoder
  · exact claims_of_nextClaimant_none none
  · have claims := nextClaimant_claims decoder
    rw [State.claims, serveClaims_decoder] at claims
    exact absurd claims (by rw [← State.claims, h hg]; decide)

theorem generalFree_serveClaims {s : State} (h : (serveClaims s).generalFree = true) : s.generalFree = true := by
  simp only [State.generalFree, Bool.and_eq_true, decide_eq_true_eq, serveClaims_trunkState] at h ⊢
  exact ⟨h.1, Nat.lt_of_le_of_lt (generalQueue_serveLoop _ s) h.2⟩

/-! ### The resources of a head -/

/-- What decides the fate of a frame and the resources that it lacks, but for the slots of the general queue. -/
structure SameResources (s t : State) : Prop where
  apertureBase : t.apertureBase = s.apertureBase := by rfl
  windows : t.windows = s.windows := by rfl
  holdLists : t.holdLists = s.holdLists := by rfl
  tickets : ∀ i, t.ticketOf i = s.ticketOf i := by exact fun _ => rfl
  ports : ∀ p, PortSteady (s.port p) (t.port p) := by exact fun _ => .refl _

theorem Unmoved.sameResources {s t : State} (h : Unmoved s t) (base : t.apertureBase = s.apertureBase) :
    SameResources s t where
  apertureBase := base
  windows := h.windows
  holdLists := h.holdLists
  tickets i := by rw [State.ticketOf, State.ticketOf, h.entry]
  ports := h.ports

namespace SameResources

variable {s t : State} (h : SameResources s t)
include h

theorem window (w : WindowIdx) : t.window w = s.window w := by rw [State.window, h.windows]; rfl

theorem holdList (w : WindowIdx) : t.holdList w = s.holdList w := by rw [State.holdList, h.holdLists]; rfl

theorem windowState (w : WindowIdx) : t.windowState w = s.windowState w :=
  windowState_congr (h.window w) (congrArg List.head? (h.holdList w))

theorem fate (f : HostFrame) : t.fate f = s.fate f := by
  have live : t.ticketLive = s.ticketLive := funext fun k => by
    rw [Bool.eq_iff_iff, ticketLive_iff, ticketLive_iff]
    simp only [h.tickets]
  have aperture : t.inAperture f.address = s.inAperture f.address := by simp only [State.inAperture, h.apertureBase]
  have lookup : t.lookup f.address = s.lookup f.address := by simp only [State.lookup, h.window]
  have windowFate : t.windowFate f = s.windowFate f := funext fun w => by
    simp only [State.windowFate, h.window, h.windowState, (h.ports _).accepts]
  rw [fate_eq, fate_eq, live, aperture, lookup, windowFate]

theorem entryFor (f : HostFrame) : t.entryFor f = s.entryFor f := by
  have free : ∀ i, (t.entry i).live.isNone = (s.entry i).live.isNone := fun i => by
    simpa [State.ticketOf] using congrArg Option.isNone (h.tickets i)
  simp only [State.entryFor, State.freeEntry, free]

theorem claimFor (f : HostFrame) (d : Fate) : t.claimFor f d = s.claimFor f d := by
  cases d <;> simp only [State.claimFor, h.entryFor, h.window]

theorem egressFree (p : PortIdx) : t.egressFree p = s.egressFree p := by
  simp only [State.egressFree, (h.ports p).accepts, (h.ports p).queue]

/-- A frame that is no management request has the resources that it had. -/
theorem canTake {f : HostFrame} {d : Fate} (hd : d ≠ .management) : t.canTake f d = s.canTake f d := by
  cases d with
  | management => exact absurd rfl hd
  | reuse => rfl
  | failed k st w => exact h.entryFor f
  | toHold w =>
    have held : t.heldTotal = s.heldTotal := by rw [State.heldTotal, h.holdLists]; rfl
    simp only [State.canTake, h.entryFor, held]
  | toQueue w => simp only [State.canTake, h.entryFor, h.egressFree, h.window]

end SameResources

/-- A claim of the decoder on the general queue waits only while no slot is free (R141). -/
def State.claimBlocked (s : State) : Prop := s.decoder.claim = .general → s.generalFree = false

theorem claimBlocked_of_admitted {s : State} (h : s.admitted) : s.claimBlocked := by
  intro hc
  by_contra hg
  have none := h (by simpa using hg) .decoder
  simp [State.claims, hc] at none

/-- No slot of the general queue is free for a READ of the aperture. -/
theorem canTake_management {s : State} {f : HostFrame} (hg : s.generalFree = false) :
    s.canTake f .management = !f.body.isRead := by
  simp only [State.canTake, State.decoderTurn, hg, Bool.false_and, Bool.or_false]

/-- A head that waits waits on where its resources and the claim stay, and no slot of the general queue becomes free. -/
theorem headWaits_of_same {s t : State} (blocked : s.claimBlocked) (res : SameResources s t)
    (decoder : t.decoder = s.decoder) (head : t.ingress.head? = s.ingress.head?)
    (general : t.generalFree = true → s.generalFree = true) (h : s.headWaits) : t.headWaits := by
  unfold State.headWaits at h ⊢
  cases hs : s.ingress with
  | nil =>
    have empty : t.ingress = [] := by simpa [hs] using head
    rw [hs] at h
    rw [empty, decoder]
    exact h
  | cons f rest =>
    obtain ⟨behind, ht⟩ : ∃ l, t.ingress = f :: l := List.head?_eq_some_iff.mp (by rw [head, hs]; rfl)
    rw [hs] at h
    obtain ⟨lacks, claim, window⟩ := h
    simp only [ht, res.fate, res.claimFor, decoder]
    refine ⟨?_, claim, window⟩
    by_cases hm : s.fate f = .management
    · rw [hm] at lacks claim ⊢
      have full : s.generalFree = false := blocked claim
      have full' : t.generalFree = false := Bool.eq_false_iff.mpr fun hg => by rw [general hg] at full; cases full
      rw [canTake_management full] at lacks
      rw [canTake_management full', lacks]
    · rw [res.canTake hm, lacks]

/-! ### The decoder's run leaves nothing waiting in vain -/

/-- No claimant waits while a slot is free, and the head lacks a resource (R42, R141). -/
structure State.inOrder (s : State) : Prop where
  admitted : s.admitted
  headWaits : s.headWaits

/-- With no frame the arbiter's run is the whole of the end of a happening. -/
theorem inOrder_serveClaims_empty {s : State} (h : s.headless) (hi : s.ingress = []) : (serveClaims s).inOrder where
  admitted := admitted_serveClaims_of fun _ => by simp [State.claims, (h hi).2]
  headWaits := headWaits_of_empty ((sameHead_serveClaims s).headless h) (by rw [serveClaims_ingress, hi])

/-- A READ of the aperture that has its claim and is not taken finds no slot free: with one free, it is its turn or another
claimant's, and the arbiter has served those. -/
theorem generalFree_of_lacking {s : State} {f : HostFrame} (hs : s.stuck) (hc : s.decoder.claim = .general)
    (lacks : s.canTake f .management = false) : s.generalFree = false := by
  by_contra hg
  rw [Bool.not_eq_false] at hg
  rcases hs hg with none | decoder
  · have := claims_of_nextClaimant_none none .decoder
    simp [State.claims, hc] at this
  · simp [State.canTake, State.decoderTurn, claim_again hc, hg, decoder] at lacks

/-- A head that is not taken waits with its claim, and no claimant waits for a free slot beside it. -/
theorem inOrder_waitHead {s u : State} {f : HostFrame} {rest : List HostFrame} (hi : s.ingress = f :: rest)
    (hu : u = claimGeneral f (s.fate f) s) (lacks : u.canTake f (s.fate f) = false) (fresh : Bool) :
    (serveClaims (waitHead fresh f (s.fate f) u)).inOrder := by
  generalize hv : waitHead fresh f (s.fate f) u = v
  have claimed : Unmoved s u := hu ▸ unmoved_claimGeneral ..
  have base : u.apertureBase = s.apertureBase := by
    rw [hu, claimGeneral]
    split
    · exact serveClaims_apertureBase _
    · rfl
  have ingress : u.ingress = s.ingress := by
    rw [hu, claimGeneral]
    split
    · exact serveClaims_ingress _
    · rfl
  have same : SameResources u v := by subst hv; exact {}
  have lacks' : v.canTake f (s.fate f) = false := by
    rw [← lacks, ← hv]
    cases s.fate f <;> rfl
  have claim : v.decoder.claim = v.claimFor f (s.fate f) := by
    rw [same.claimFor, ← hv]
    rfl
  have blocked : v.claimBlocked := by
    intro hc
    rw [claim] at hc
    cases hd : s.fate f with
    | management =>
      rw [hd] at lacks hu
      have read : f.body.isRead = true := by
        by_contra hr
        simp [State.canTake, hr] at lacks
      have served : u = serveClaims { s with decoder := { s.decoder with claim := .general } } := by
        rw [hu, claimGeneral, if_pos ⟨rfl, read⟩]
      have full : u.generalFree = false :=
        generalFree_of_lacking (served ▸ serveClaims_stuck _) (by rw [served, serveClaims_decoder]) lacks
      rw [← full, ← hv]
      rfl
    | toQueue w =>
      rw [hd, State.claimFor] at hc
      split at hc <;> cases hc
    | reuse | failed k st w | toHold w =>
      rw [hd] at hc
      cases hc
  have waits : v.headWaits := by
    have hiv : v.ingress = f :: rest := by rw [← hv]; exact ingress.trans hi
    have fate : v.fate f = s.fate f := (same.fate f).trans ((claimed.sameResources base).fate f)
    simp only [State.headWaits, hiv, fate]
    exact ⟨lacks', claim, by rw [← hv]; rfl⟩
  refine ⟨admitted_serveClaims_of fun hg => ?_, headWaits_of_same blocked ((unmoved_serveClaims v).sameResources
    (serveClaims_apertureBase v)) (serveClaims_decoder v) (by rw [serveClaims_ingress]) generalFree_serveClaims waits⟩
  have free := generalFree_serveClaims hg
  by_contra hc
  rw [blocked (by simpa [State.claims] using hc)] at free
  cases free

/-- The decoder's run ends where the queue is empty or its head must wait, with every free slot granted (R41, R42, R141). -/
theorem inOrder_decodeLoop (n : Nat) (fresh : Bool) {s : State} (h : s.headless) (hn : s.ingress.length ≤ n) :
    (decodeLoop n fresh s).inOrder := by
  induction n generalizing fresh s with
  | zero => exact inOrder_serveClaims_empty h (List.length_eq_zero_iff.mp (Nat.le_zero.mp hn))
  | succ n ih =>
    simp only [decodeLoop]
    cases hi : s.ingress with
    | nil => exact inOrder_serveClaims_empty h hi
    | cons f rest =>
      simp only
      generalize hu : claimGeneral f (s.fate f) s = u
      split
      · obtain ⟨ingress, decoder⟩ := takeFrame_head f (s.fate f) u
        have behind : u.ingress = f :: rest := by
          rw [← hu, ← hi, claimGeneral]
          split
          · exact serveClaims_ingress _
          · rfl
        refine ih true (headless_of_clear decoder) ?_
        rw [ingress, behind]
        rw [hi] at hn
        exact Nat.le_of_succ_le_succ hn
      · rename_i lacks
        exact inOrder_waitHead hi hu.symm (by simpa using lacks) fresh

theorem inOrder_decodeRun (fresh : Bool) {s : State} (h : s.headless) : (decodeRun fresh s).inOrder :=
  inOrder_decodeLoop _ fresh h (Nat.le_refl _)

/-- The end of a happening leaves nothing waiting in vain (R53, R141). -/
theorem inOrder_settle {s : State} (h : s.headless) : (settle s).inOrder :=
  inOrder_decodeRun false ((sameHead_serveClaims s).headless h)

end Sys2Proof.Machine
end

section
/-! Every command leaves nothing waiting in vain (O56): what is not followed by the decoder's run leaves a waiting head its lack,
and no claimant a free slot. -/

namespace Sys2Proof.Machine

-- The theorems are checked one after the other, which bounds the memory that the check takes.
set_option Elab.async false

/-! ### Operations without a run of the decoder -/

/-- Where nothing waited in vain nothing does. -/
structure Patient (s t : State) : Prop where
  inOrder : s.inOrder → t.inOrder

theorem Patient.refl (s : State) : Patient s s := ⟨id⟩

theorem Patient.trans {s t u : State} (h : Patient s t) (k : Patient t u) : Patient s u := ⟨k.inOrder ∘ h.inOrder⟩

/-- The head keeps its lack, and the claimants are judged apart. -/
theorem patient_of_same {s t : State} (res : SameResources s t) (admitted : s.admitted → t.admitted)
    (decoder : t.decoder = s.decoder := by rfl) (head : t.ingress.head? = s.ingress.head? := by rfl)
    (general : t.generalFree = true → s.generalFree = true := by exact id) : Patient s t :=
  ⟨fun h => ⟨admitted h.admitted,
    headWaits_of_same (claimBlocked_of_admitted h.admitted) res decoder head general h.headWaits⟩⟩

/-- A port that keeps its queue and its buffer. -/
theorem patient_setPort {s : State} {p : PortIdx} {b : PortBlock} (accepts : b.state.accepts = (s.port p).state.accepts)
    (queue : b.queue = (s.port p).queue := by rfl) (buffer : b.buffer = (s.port p).buffer := by rfl) :
    Patient s (s.setPort p b) := by
  have steady : PortSteady (s.port p) b := ⟨accepts, queue, fun _ h => buffer.trans h⟩
  refine patient_of_same ((unmoved_setPort steady).sameResources rfl) (admitted_congr rfl rfl rfl rfl rfl fun k hk => ?_)
  rw [State.port_setPort]
  split
  · rename_i h; subst h; exact buffer.trans hk
  · exact hk

theorem patient_modLink (l : Link) (f : LinkEnd → LinkEnd) (s : State) : Patient s (s.modLink l f) := by
  cases l with
  | trunk => exact patient_of_same {} (admitted_congr rfl rfl rfl rfl rfl fun _ hb => hb)
  | branch p => exact patient_setPort rfl

theorem patient_refreshIdle (p : PortIdx) (s : State) : Patient s (refreshIdle p s) := by
  obtain e | ⟨_, _, e⟩ | ⟨up, e⟩ := refreshIdle_cases p s <;> rw [e]
  · exact .refl s
  · exact patient_setPort rfl
  · exact patient_setPort (by rw [up]; rfl)

theorem patient_enterWaking {p : PortIdx} {s : State} (h : (s.port p).state.accepts = true) (started : Bool) :
    Patient s (enterWaking started p s) := by
  unfold enterWaking
  refine Patient.trans ?_ (patient_modLink ..)
  exact patient_setPort h.symm

theorem patient_dueSync (l : Link) (s : State) : Patient s (dueSync l s) := by
  unfold dueSync sendSync
  split <;> exact patient_modLink ..

/-- A link's entry to TRAINING; the trunk grants no slot there (R87, R141). -/
theorem patient_startTraining {l : Link} {s : State} (h : s.linkOpen l) : Patient s (startTraining l s) := by
  have training : Patient s (setTraining l s) := by
    cases l with
    | trunk =>
      have closed : (setTraining .trunk s).generalFree = false := rfl
      exact patient_of_same {} (fun _ hg => by rw [closed] at hg; cases hg) rfl rfl fun hg => by rw [closed] at hg; cases hg
    | branch p => exact patient_setPort h.symm
  exact training.trans ((patient_modLink ..).trans (patient_dueSync ..))

theorem patient_arrival (i : LineIdx) (s : State) : Patient s (arrival i s) := by
  have claimant : ∀ hg : (arrival i s).generalFree = true, s.generalFree = true := fun hg =>
    generalFree_serveClaims (s := s.setLine i (s.line i).arrive) hg
  exact patient_of_same ((unmoved_arrival i s).sameResources (arrival_apertureBase i s))
    (fun h => admitted_serveClaims_of fun hg => h (claimant hg) .decoder) (arrival_decoder i s)
    (by rw [arrival_ingress]) claimant

theorem patient_recordFault (k : FaultKind) (src : FaultSource) (w : Option WindowIdx) (t : Option (BitVec 6))
    (a : Option HostAddr) (c : Option FaultCount) (s : State) : Patient s (recordFault k src w t a c s) := by
  have taken : Patient s (takeFault ⟨k, src, w, t, a, c, s.time⟩ s) := by
    rw [takeFault_eq]
    exact patient_of_same {} (admitted_congr rfl rfl rfl rfl rfl fun _ hb => hb)
  exact taken.trans (patient_arrival ..)

theorem patient_consume (l : Link) (c : CreditClass) (s : State) : Patient s (s.consume l c) := patient_modLink ..

theorem patient_discardFrame (l : Link) (s : State) : Patient s (discardFrame l s) := patient_modLink ..

theorem patient_frameInvalid (l : Link) (kind : Byte) (c : Option CreditClass) (s : State) :
    Patient s (frameInvalid l kind c s) := by
  unfold frameInvalid
  cases c with
  | none => exact (patient_discardFrame l s).trans (patient_recordFault ..)
  | some c => exact (patient_discardFrame l s).trans ((patient_consume ..).trans (patient_recordFault ..))

theorem patient_creditOverrun (l : Link) (c : CreditClass) (t : Option (BitVec 6)) (a : HostAddr) (s : State) :
    Patient s (creditOverrun l c t a s) :=
  (patient_discardFrame l s).trans ((patient_consume ..).trans (patient_recordFault ..))

/-- An answer keeps the ticket of its entry, and frees none (R61, R75). -/
theorem patient_toReplying (i : EntryIdx) (st : Status) (data : List Byte) (s : State) :
    Patient s (toReplying i st data s) := by
  refine ⟨fun h => ?_⟩
  obtain ⟨e, _⟩ | ⟨v, hv, _, e⟩ := toReplying_cases i st data s
  · rw [e]; exact h
  · refine (patient_of_same ?_ (fun h => admitted_toReplying h i st data) (by rw [e]; rfl) (by rw [e]; rfl)
      (by rw [e]; exact id)).inOrder h
    rw [e]
    refine { tickets := fun j => ?_ }
    show (s.setEntry i _).ticketOf j = _
    rw [ticketOf_setEntry]
    split
    · rename_i hj; rw [← hj, State.ticketOf, hv]; rfl
    · rfl

/-! ### Ends of happenings -/

/-- The end of a happening that left the decoder as it stood. -/
theorem patient_settle {s t : State} (h : SameHead s t) : Patient s (settle t) :=
  ⟨fun hs => inOrder_settle (h.headless (headless_of_headWaits hs.headWaits))⟩

/-- The end of a happening that left the decoder without a head. -/
theorem patient_settle_clear {s t : State} (h : t.decoder = .clear) : Patient s (settle t) :=
  ⟨fun _ => inOrder_settle (headless_of_clear h)⟩

/-- A frame that joins the queue is examined where it becomes head, and else stands behind the head (R41, R126). -/
theorem patient_enqueueTrunk (f : HostFrame) (s : State) : Patient s (enqueueTrunk f s) := by
  unfold enqueueTrunk
  simp only
  split
  · exact ⟨fun _ => inOrder_decodeRun true fun hi => absurd hi (by simp)⟩
  · rename_i hi
    refine patient_of_same {} (admitted_congr rfl rfl rfl rfl rfl fun _ hb => hb) rfl ?_
    cases hs : s.ingress with
    | nil => simp [hs] at hi
    | cons g rest => rfl

/-! ### Deadlines -/

theorem patient_whenPowered {f : State → State} {s : State} (h : Patient s (f s)) : Patient s (whenPowered f s) := by
  unfold whenPowered
  split
  · exact h
  · exact .refl s

theorem decoder_trunkLoss (cause : FaultKind) (s : State) : (trunkLoss cause s).decoder = .clear :=
  (trunkLoss_branchSide cause s).decoder

theorem sameHead_portFail (cause : FaultKind) (p : PortIdx) (s : State) : SameHead s (portFail cause p s) :=
  (portDown_branchSide ..).sameHead.trans (sameHead_modLink ..)

theorem patient_resendReached (l : Link) (s : State) : Patient s (resendReached l s) := by
  unfold resendReached
  simp only
  split
  · split
    · exact patient_dueSync l s
    · cases l with
      | trunk => exact patient_settle_clear (decoder_trunkLoss ..)
      | branch p => exact patient_settle (sameHead_portFail ..)
  · exact .refl s

theorem patient_retryReached (l : Link) (s : State) : Patient s (retryReached l s) := by
  unfold retryReached
  split
  · cases l with
    | trunk => exact patient_startTraining (l := .trunk) trivial
    | branch p => exact patient_settle (sameHead_openPort p s)
  · exact .refl s

theorem expire_branchSide (i : EntryIdx) (v : Live) (s : State) : BranchSide s (expire i v s) :=
  (toReplying_branchSide ..).trans (recordFault_branchSide ..)

theorem patient_ticketReached (i : EntryIdx) (s : State) : Patient s (ticketReached i s) := by
  unfold ticketReached
  split
  · exact .refl s
  · rename_i v _
    have expired : ∀ u, BranchSide u (expire i v u) := expire_branchSide i v
    split
    · split
      · split
        · rename_i w _
          have removed : SameHead s (removeHeld w i s) := {}
          exact patient_settle (removed.trans ((expired _).trans
            ((examineHeads_branchSide ..).trans (grantWindows_branchSide ..))).sameHead)
        · exact patient_settle (expired s).sameHead
      · rename_i r _
        have removed : SameHead s (removeQueued r.port i s) := {}
        exact patient_settle (removed.trans ((expired _).trans
          ((grantWindows_branchSide ..).trans (refreshIdle_branchSide ..))).sameHead)
      · exact patient_settle ((expired s).trans (refreshIdle_branchSide ..)).sameHead
      · exact .refl s
    · exact .refl s

theorem patient_headWaitReached (s : State) : Patient s (headWaitReached s) := by
  unfold headWaitReached
  split
  · exact .refl s
  · rename_i f rest hi
    split
    · refine ⟨fun _ => inOrder_decodeRun true (headless_of_clear ?_)⟩
      rw [recordFault_decoder, popHead_eq]
      rfl
    · exact .refl s

theorem patient_answerReached (p : PortIdx) (s : State) : Patient s (answerReached p s) := by
  unfold answerReached
  simp only
  split
  · rename_i h
    refine Patient.trans ?_ ((patient_recordFault ..).trans (patient_refreshIdle ..))
    exact patient_setPort (by rw [h.1]; rfl)
  · exact .refl s

theorem patient_wakeReached (p : PortIdx) (s : State) : Patient s (wakeReached p s) := by
  unfold wakeReached
  simp only
  split
  · exact patient_settle (sameHead_portFail ..)
  · exact .refl s

theorem patient_idleReached (p : PortIdx) (s : State) : Patient s (idleReached p s) := by
  unfold idleReached
  simp only
  split
  · rename_i h
    exact patient_setPort (by rw [h.1]; rfl)
  · exact .refl s

/-! ### Received frames -/

theorem patient_crcFail (l : Link) (s : State) : Patient s (crcFail l s) := by
  have counted := patient_modLink l (fun e => { e with crcErrors := e.crcErrors + 1 }) s
  unfold crcFail
  split
  · exact .refl s
  · rename_i hl
    have opened := ((unmoved_modLink l (fun e => { e with crcErrors := e.crcErrors + 1 }) s).trans
      (unmoved_recordFault .crcError (linkSource l) none none none none _)).linkOpen
        (linkOpen_of_rxPhase (by rw [hl]; decide))
    exact counted.trans ((patient_recordFault ..).trans (patient_startTraining opened))
  · exact counted
  · exact counted
  · exact counted

/-- A frame that arrives leaves nothing waiting in vain where what an open link does with it does not. -/
theorem patient_receive {training live doze waking : State → State} {l : Link} (size : Nat)
    (ht : ∀ u, u.linkOpen l → Patient u (training u)) (hl : ∀ u, u.linkOpen l → Patient u (live u))
    (hd : ∀ u, u.linkOpen l → Patient u (doze u)) (hw : ∀ u, u.linkOpen l → Patient u (waking u)) (s : State) :
    Patient s (receive l size training live doze waking s) := by
  have counted : Patient s (s.modLink l LinkEnd.countIn) := patient_modLink ..
  have opened : s.rxPhase l ≠ .deaf → (s.modLink l LinkEnd.countIn).linkOpen l := fun h =>
    (unmoved_modLink ..).linkOpen (linkOpen_of_rxPhase h)
  unfold receive
  split
  · simp only
    split
    · exact .refl s
    · rename_i h; exact counted.trans (ht _ (opened (by rw [h]; decide)))
    · rename_i h; exact counted.trans (hl _ (opened (by rw [h]; decide)))
    · rename_i h; exact counted.trans (hd _ (opened (by rw [h]; decide)))
    · rename_i h; exact counted.trans (hw _ (opened (by rw [h]; decide)))
  · exact patient_crcFail l s

/-- A link enters UP with what `f` does to its end; on the trunk the grants resume (R88, R89, R141). -/
theorem patient_toUp {l : Link} {s : State} (h : s.linkOpen l) (f : LinkEnd → LinkEnd) :
    Patient s (afterUp l ((setUp l s).modLink l f)) := by
  cases l with
  | trunk => exact patient_settle {}
  | branch p =>
    have up : Patient s (setUp (.branch p) s) := patient_setPort h.symm
    exact up.trans ((patient_modLink ..).trans (patient_refreshIdle ..))

theorem patient_receiveSync (l : Link) (size : Nat) (a b : Byte) (s : State) : Patient s (receiveSync l size a b s) := by
  have toUp : ∀ u : State, u.linkOpen l → Patient u (syncToUp l a b u) := fun u h => patient_toUp h _
  have whenLive : ∀ u : State, u.linkOpen l → Patient u (syncWhenLive l a b u) := by
    intro u h
    unfold syncWhenLive
    split
    · exact patient_modLink ..
    · split
      · exact patient_modLink ..
      · exact toUp u h
  unfold receiveSync
  refine patient_receive size (fun u h => ?_) (fun u h => ?_) (fun u h => ?_) (fun u h => ?_) s <;> split
  · exact toUp u h
  · exact patient_discardFrame ..
  · exact whenLive u h
  · exact patient_frameInvalid ..
  · exact toUp u h
  · exact patient_frameInvalid ..
  · exact toUp u h
  · exact patient_discardFrame ..

theorem patient_receiveSyncAck (l : Link) (size : Nat) (a b : Byte) (s : State) :
    Patient s (receiveSyncAck l size a b s) := by
  unfold receiveSyncAck
  refine patient_receive size (fun u h => ?_) (fun u _ => ?_) (fun u _ => patient_frameInvalid l 0x90 none u)
    (fun u _ => patient_discardFrame l u) s <;> split
  · exact patient_toUp h _
  · exact patient_discardFrame ..
  · exact .refl u
  · exact patient_frameInvalid ..

theorem patient_receiveCredit (l : Link) (size : Nat) (a b : Byte) (s : State) : Patient s (receiveCredit l size a b s) := by
  unfold receiveCredit
  refine patient_receive size (fun u _ => patient_discardFrame l u) (fun u _ => ?_)
    (fun u _ => patient_frameInvalid l 0xA0 none u) (fun u _ => patient_discardFrame l u) s
  split
  · exact patient_modLink ..
  · exact patient_frameInvalid ..

/-- A trunk RESET leaves no frame and no claimant, and the trunk in TRAINING (R133). -/
theorem patient_trunkReset (s : State) : Patient s (trunkReset s) := by
  generalize hu : dropIngress { clearRouter s with apertureBase := Config.strapDefault s.strapId } = u
  have idle : u.inOrder := by
    subst hu
    refine ⟨admitted_of_idle rfl (fun p => ?_) (fun i => ?_), headWaits_of_empty (headless_of_clear rfl) rfl⟩
    · exact congrArg PortBlock.buffer (port_clearRouter s p)
    · exact congrArg EventLine.eligible (line_clearRouter s i)
  unfold trunkReset
  rw [hu]
  exact ⟨fun _ => (patient_startTraining (l := .trunk) trivial).inOrder idle⟩

theorem patient_receiveRequest (r : TrunkRequest) (s : State) : Patient s (receiveRequest r s) := by
  refine patient_receive _ (fun u _ => patient_discardFrame .trunk u) (fun u _ => ?_) (fun u _ => .refl u)
    (fun u _ => .refl u) s
  unfold acceptRequest
  split
  · split
    · exact patient_enqueueTrunk ..
    · exact patient_creditOverrun ..
  · exact patient_frameInvalid ..

theorem patient_acceptUpWrite (p : PortIdx) (n : Nat) (a : ModuleAddr) (data : List Byte) (s : State) :
    Patient s (acceptUpWrite p n a data s) := by
  have refused : ∀ k, Patient s (refuseUpWrite k p n a s) := fun k => (patient_consume ..).trans (patient_recordFault ..)
  unfold acceptUpWrite
  simp only
  split
  · exact patient_creditOverrun ..
  · split
    · exact refused _
    · split
      · exact patient_settle (SameHead.trans {} (refreshIdle_branchSide ..).sameHead)
      · exact refused _

theorem patient_acceptResult (p : PortIdx) (size : Nat) (st : BitVec 3) (ticket n : Byte) (data : List Byte) (s : State) :
    Patient s (acceptResult p size st ticket n data s) := by
  have matched : ∀ i v u, Patient u (matchedResult i v st n data u) := by
    intro i v u
    unfold matchedResult
    split
    · split
      · exact patient_toReplying ..
      · exact (patient_toReplying ..).trans (patient_recordFault ..)
    · exact patient_toReplying ..
  have stale : ∀ u, Patient u (staleResult p ticket u) := fun u =>
    Patient.trans (t := u.modPort p fun b => { b with stale := b.stale + 1 }) (patient_setPort rfl) (patient_recordFault ..)
  unfold acceptResult
  split
  · refine (patient_consume (.branch p) .b s).trans ?_
    simp only
    split
    · exact (matched ..).trans (patient_refreshIdle ..)
    · exact stale _
  · exact patient_frameInvalid ..

theorem patient_acceptDozeAck {p : PortIdx} {s : State} (h : s.linkOpen (.branch p)) : Patient s (acceptDozeAck p s) := by
  unfold acceptDozeAck
  simp only
  split
  · exact patient_setPort rfl
  · split
    · exact patient_setPort h.symm
    · exact patient_enterWaking h _

/-! ### Signals and the tick -/

theorem patient_loseSignal (l : Link) (s : State) : Patient s (loseSignal l s) := by
  have gone : Patient s (s.modLink l fun e => { e with signal := false }) := patient_modLink ..
  unfold loseSignal
  split
  · cases l with
    | trunk =>
      simp only
      split
      · exact gone
      · exact patient_settle_clear (decoder_trunkLoss ..)
      · exact patient_settle_clear (decoder_trunkLoss ..)
    | branch p =>
      simp only
      split
      · exact gone.trans (patient_settle (sameHead_portFail ..))
      · exact gone
  · exact .refl s

theorem patient_tick (s : State) : Patient s (tick s) := by
  unfold tick
  simp only
  split
  · refine patient_settle (SameHead.trans ?_ ((examineAll_branchSide _).trans (grantAll_branchSide _)).sameHead)
    exact {}
  · exact patient_of_same {} (admitted_congr rfl rfl rfl rfl rfl fun _ hb => hb)

/-- The power-on state, the trunk not in UP and no frame waiting (R184, R185). -/
theorem inOrder_blank (porN : Bool) (strap : BitVec 2) (q : List Instr) : (State.blank porN strap q).inOrder :=
  ⟨fun h => (by cases h), headWaits_of_empty (headless_of_clear rfl) rfl⟩

/-! ### Transmissions -/

theorem sameHead_markSent (p : PortIdx) (b : ReqBody) (s : State) : SameHead s (markSent p b s) := by
  unfold markSent
  split
  · exact .refl s
  · split
    · split <;> exact {}
    · exact .refl s

theorem patient_sendEgress (p : PortIdx) (q : Queued) (s : State) : Patient s (sendEgress p q s) := by
  refine patient_settle (SameHead.trans ?_ ((sameHead_markSent ..).trans
    ((grantWindows_branchSide ..).trans (refreshIdle_branchSide ..)).sameHead))
  exact {}

theorem patient_sendReply (s : State) : Patient s (sendReply s) := by
  unfold sendReply
  split
  · exact .refl s
  · exact patient_settle {}

theorem patient_sendGeneral (s : State) : Patient s (sendGeneral s) := by
  unfold sendGeneral
  split
  · exact .refl s
  · exact patient_settle {}

/-- A transmission that is taken where it is ready, and else leaves the state. -/
theorem patient_ifReady {s : State} {ready : Prop} [Decidable ready] {sent : State} (h : Patient s sent) :
    Patient s (if ready then sent else s) := by
  split
  · exact h
  · exact .refl s

/-! ### Every command -/

/-- Every command leaves nothing waiting in vain. -/
theorem patient_exec {c : Instr} {s t : State} (h : exec c s = .next t) : Patient s t := by
  suffices all : ∃ u, exec c s = .next u ∧ Patient s u by
    obtain ⟨u, hu, patient⟩ := all
    rw [h] at hu
    obtain rfl := Host.Outcome.next.inj hu
    exact patient
  cases c with
  | porAssert => exact ⟨_, rfl, ⟨fun _ => inOrder_blank ..⟩⟩
  | porRelease id1 id0 =>
    exact ⟨_, rfl, ⟨fun _ => (patient_startTraining (l := .trunk) trivial).inOrder (inOrder_blank ..)⟩⟩
  | signalLost l => exact ⟨_, rfl, patient_whenPowered (patient_loseSignal l s)⟩
  | crcError l => exact ⟨_, rfl, patient_crcFail l s⟩
  | trunkIngressFrame f => exact ⟨_, rfl, patient_receiveRequest f s⟩
  | trunkReset size =>
    refine ⟨_, rfl, patient_receive size (fun u _ => patient_discardFrame _ u) (fun u _ => ?_) (fun u _ => .refl u)
      (fun u _ => .refl u) s⟩
    split
    · exact patient_trunkReset u
    · exact patient_frameInvalid ..
  | syncReceived l size a b => exact ⟨_, rfl, patient_receiveSync ..⟩
  | syncAckReceived l size a b => exact ⟨_, rfl, patient_receiveSyncAck ..⟩
  | creditReceived l size a b => exact ⟨_, rfl, patient_receiveCredit ..⟩
  | moduleWriteArrival p size n a data =>
    refine ⟨_, rfl, patient_receive size (fun u _ => patient_discardFrame _ u) (fun u _ => ?_)
      (fun u _ => patient_frameInvalid _ _ _ u) (fun u _ => patient_discardFrame _ u) s⟩
    split
    · exact patient_acceptUpWrite ..
    · exact patient_frameInvalid ..
  | branchResultArrival p size st ticket n data =>
    exact ⟨_, rfl, patient_receive size (fun u _ => patient_discardFrame _ u)
      (fun u _ => patient_acceptResult p size st ticket n data u) (fun u _ => patient_frameInvalid _ _ _ u)
      (fun u _ => patient_discardFrame _ u) s⟩
  | eventFrame p size code =>
    refine ⟨_, rfl, patient_receive size (fun u _ => patient_discardFrame _ u) (fun u _ => ?_)
      (fun u _ => patient_frameInvalid _ _ _ u) (fun u _ => patient_discardFrame _ u) s⟩
    split
    · exact patient_arrival ..
    · exact patient_frameInvalid ..
  | dozeAck p size =>
    refine ⟨_, rfl, patient_receive size (fun u _ => patient_discardFrame _ u) (fun u opened => ?_)
      (fun u _ => patient_frameInvalid _ _ _ u) (fun u _ => patient_discardFrame _ u) s⟩
    split
    · exact patient_acceptDozeAck opened
    · exact patient_frameInvalid ..
  | moduleWake p size =>
    refine ⟨_, rfl, patient_receive size (fun u _ => patient_discardFrame _ u) (fun u _ => ?_) (fun u opened => ?_)
      (fun u _ => patient_discardFrame _ u) s⟩ <;> split
    · exact .refl u
    · exact patient_frameInvalid ..
    · exact patient_enterWaking opened _
    · exact patient_frameInvalid ..
  | resendDeadline l => exact ⟨_, rfl, patient_whenPowered (patient_resendReached l s)⟩
  | retryDeadline l => exact ⟨_, rfl, patient_whenPowered (patient_retryReached l s)⟩
  | ticketDeadline i => exact ⟨_, rfl, patient_whenPowered (patient_ticketReached i s)⟩
  | headWaitDeadline => exact ⟨_, rfl, patient_whenPowered (patient_headWaitReached s)⟩
  | answerDeadline p => exact ⟨_, rfl, patient_whenPowered (patient_answerReached p s)⟩
  | wakeDeadline p => exact ⟨_, rfl, patient_whenPowered (patient_wakeReached p s)⟩
  | idleDeadline p => exact ⟨_, rfl, patient_whenPowered (patient_idleReached p s)⟩
  | syncTransmit l | syncAckTransmit l | creditTransmit l =>
    exact ⟨_, rfl, patient_whenPowered (patient_ifReady (patient_modLink ..))⟩
  | dozeReqTransmit p | wakeTransmit p => exact ⟨_, rfl, patient_whenPowered (patient_ifReady (patient_setPort rfl))⟩
  | branchEgressTransmit p =>
    refine ⟨_, rfl, patient_whenPowered ?_⟩
    cases s.egressReady p with
    | none => exact .refl s
    | some q => exact patient_sendEgress p q s
  | replyLaneTransmit => exact ⟨_, rfl, patient_whenPowered (patient_ifReady (patient_sendReply s))⟩
  | generalQueueTransmit => exact ⟨_, rfl, patient_whenPowered (patient_ifReady (patient_sendGeneral s))⟩
  | signalPresent l | transmitterFree l => exact ⟨_, rfl, patient_whenPowered (patient_modLink ..)⟩
  | routerTimeTick => exact ⟨_, rfl, patient_whenPowered (patient_tick s)⟩
  | disallowedKindFrame l size kind =>
    exact ⟨_, rfl, patient_receive size (fun u _ => patient_discardFrame l u) (fun u _ => patient_frameInvalid l kind none u)
      (fun u _ => patient_frameInvalid l kind none u) (fun u _ => patient_discardFrame l u) s⟩
  | windowRecordWrite w bytes | apertureBaseWrite v | ticketLifetimeWrite v | headWaitLimitWrite v | routerReset
  | portEnable p e u v | autoDozeIntervalWrite p e u v | dozeCommand p | wakeCommand p | portResetCommand p
  | eventLineEnableWrite i e v | ack i | clear i | pop | droppedCountClear v | counterClear l k n v
  | managementWrite off data => exact ⟨_, rfl, patient_receiveRequest ..⟩

/-- Settles O56: a step runs one command, or none, and each command leaves nothing waiting in vain. -/
theorem stepsLeaveNothingWaitingInVain : Obligations.StepsLeaveNothingWaitingInVain := by
  unfold Obligations.StepsLeaveNothingWaitingInVain
  intro s t admitted headWaits h
  suffices patient : Patient s t by
    obtain ⟨admitted', headWaits'⟩ := patient.inOrder ⟨admitted, headWaits⟩
    exact ⟨admitted', headWaits'⟩
  unfold step at h
  split at h
  · obtain rfl := Host.Outcome.next.inj h
    exact .refl s
  · rename_i c rest _
    have taken : Patient s (s.withPending rest) :=
      patient_of_same {} (admitted_congr rfl rfl rfl rfl rfl fun _ hb => hb)
    exact taken.trans (patient_exec h)

end Sys2Proof.Machine
end

section
/-! The transmission of the general queue's head (O13): whose turn it is, and the frame that leaves. -/

namespace Sys2Proof.Machine

-- The theorems are checked one after the other, which bounds the memory that the check takes.
set_option Elab.async false

section
variable {s : State} {f : GeneralFrame} {rest : List GeneralFrame}

/-- The reply lane offers its head exactly where it holds one and INBOUND has credit (R137). -/
theorem replyOffer_eq_true_iff : s.replyOffer = true ↔ s.replyLane ≠ [] ∧ s.trunk.credit .a ≠ 0 := by
  simp [State.replyOffer]

/-- A NOTICE is offered always, another frame with credit (R137). -/
theorem generalOffer_of_head (hq : s.generalQueue = f :: rest) (hc : f.inbound = true → s.trunk.credit .a ≠ 0) :
    s.generalOffer = true := by
  cases f with
  | notice v => simp only [State.generalOffer, hq]
  | result t st data | write w =>
    simp only [State.generalOffer, hq]
    exact decide_eq_true (hc rfl)

/-- The general queue waits its turn where both lanes can offer and its own was served last (R138). -/
theorem generalReady_of_served (hr : s.replyOffer = true) (hlast : s.laneLast = .general) : s.generalReady = false := by
  simp [State.generalReady, hr, hlast]

/-- An offered head is taken where the reply lane offers none or was served last (R137, R138). -/
theorem generalReady_of_turn (ho : s.trunkOffers = true) (hg : s.generalOffer = true)
    (ht : s.replyOffer = false ∨ s.laneLast = .reply) : s.generalReady = true := by
  rcases ht with h | h <;> simp [State.generalReady, ho, hg, h]

/-- The head leaves the general queue; a RESULT or WRITE counts as sent (R128, R136, R137). -/
theorem sendGeneral_head (hq : s.generalQueue = f :: rest) : sendGeneral s = settle { s with
    generalQueue := rest
    laneLast := .general
    trunk := if f.inbound then (s.trunk.transmit f.tx).countSent .a else s.trunk.transmit f.tx } := by
  simp only [sendGeneral, hq]

end

/-- Settles O13: whose turn it is by the two lanes' offers, and then the frame that leaves. -/
theorem generalQueueTransmitsItsHead : Obligations.GeneralQueueTransmitsItsHead := by
  unfold Obligations.GeneralQueueTransmitsItsHead
  intro s f rest credit hpor hup htx hack hcredit hq
  have offers : s.trunkOffers = true := by simp [State.trunkOffers, State.txFree, State.controlDue, hup, htx, hack, hcredit]
  have row : exec .generalQueueTransmit s = .next (if s.generalReady then sendGeneral s else s) :=
    congrArg Host.Outcome.next (whenPowered_of_high hpor _)
  rw [row]
  refine ⟨fun hlane hc hlast => ?_, fun hturn => ?_⟩
  · rw [generalReady_of_served (replyOffer_eq_true_iff.mpr ⟨hlane, hc⟩) hlast, if_neg Bool.false_ne_true]
  · have turn : s.replyOffer = false ∨ s.laneLast = .reply := by
      rcases hturn with h | h | h
      · exact .inl (Bool.eq_false_iff.mpr fun hr => (replyOffer_eq_true_iff.mp hr).elim fun lane _ => lane h)
      · exact .inl (Bool.eq_false_iff.mpr fun hr => (replyOffer_eq_true_iff.mp hr).elim fun _ hc => hc h)
      · exact .inr h
    have taken : (f.inbound = true → credit ≠ 0) →
        (if s.generalReady then sendGeneral s else s) = sendGeneral s := fun hc =>
      if_pos (generalReady_of_turn offers (generalOffer_of_head hq hc) turn)
    refine ⟨fun v hf => ?_, fun w hf hc => ?_, fun t st data hf hc => ?_⟩
    · subst hf
      rw [taken (fun h => by cases h), sendGeneral_head hq]
      rfl
    · subst hf
      rw [taken (fun _ => hc), sendGeneral_head hq]
      rfl
    · subst hf
      rw [taken (fun _ => hc), sendGeneral_head hq]
      rfl

end Sys2Proof.Machine
end

section
/-! The cyclic order of the admission arbiter (O39): the turns of the claimants and of the event lines, and each grant. -/

namespace Sys2Proof.Machine

-- The theorems are checked one after the other, which bounds the memory that the check takes.
set_option Elab.async false

/-! ### Turns -/

/-- In a list in the order of a count, a search finds the element of the lowest count that meets the condition. -/
theorem find?_of_lowest {α : Type} {c : α → Bool} {turn : α → Nat} {l : List α} {x : α}
    (sorted : l.Pairwise fun y z => turn y < turn z) (hx : x ∈ l) (hc : c x = true)
    (low : ∀ y, c y = true → turn x ≤ turn y) : l.find? c = some x := by
  rw [List.find?_eq_some_iff_append]
  obtain ⟨before, behind, rfl⟩ := List.append_of_mem hx
  obtain ⟨_, _, earlier⟩ := List.pairwise_append.mp sorted
  refine ⟨hc, before, behind, rfl, fun y hy => ?_⟩
  have sooner := earlier y hy x List.mem_cons_self
  rw [Bool.not_eq_true']
  exact Bool.eq_false_iff.mpr fun h => absurd (low y h) (Nat.not_le.mpr sooner)

/-- A claimant's place in the order decoder, branch 0 to 3, event unit (R140). -/
def Claimant.rank : Claimant → Nat
  | .decoder => 0
  | .branch p => 1 + p.val
  | .eventUnit => 5

/-- The turns after the last served claimant. -/
def Claimant.turn (last c : Claimant) : Nat := (c.rank + 5 - last.rank) % 6

/-- The cyclic order is that of the turns (R140). -/
theorem sorted_after (last : Claimant) : last.after.Pairwise fun c d => last.turn c < last.turn d := by
  cases last with
  | decoder | eventUnit => decide
  | branch p => fin_cases p <;> decide

/-- The first present claimant after the last served one is next (R141). -/
theorem nextClaimant_of_first {s : State} {c : Claimant} (hc : s.claims c = true)
    (first : ∀ d, s.claims d = true → s.arbLast.turn c ≤ s.arbLast.turn d) : s.nextClaimant = some c :=
  find?_of_lowest (sorted_after s.arbLast) (mem_after s.arbLast c) hc first

/-- A line's turns after the last served line (R149). -/
def lineTurn (last i : LineIdx) : Nat := (i.val + 32 - last.val) % 33

theorem lineTurn_add (last k : LineIdx) : lineTurn last (last + 1 + k) = k.val := by
  have := last.isLt
  have := k.isLt
  simp only [lineTurn, Fin.val_add, Fin.val_one]
  omega

/-- The first eligible line after the last served one is chosen (R149). -/
theorem nextLine_of_first {s : State} {i : LineIdx} (hi : (s.line i).eligible = true)
    (first : ∀ j, (s.line j).eligible = true → lineTurn s.lastLine i ≤ lineTurn s.lastLine j) : s.nextLine = some i := by
  refine find?_of_lowest (turn := lineTurn s.lastLine) (List.pairwise_map.mpr ?_) ?_ hi first
  · simp only [lineTurn_add]
    exact List.pairwise_lt_finRange 33
  · exact List.mem_map.mpr ⟨i - (s.lastLine + 1), List.mem_finRange _, add_sub_cancel _ _⟩

/-! ### Grants -/

section
variable {s : State}

/-- No slot is granted while none is free or nobody claims (R141). -/
theorem serveClaims_of_blocked (h : s.trunkState ≠ .up ∨ 8 ≤ s.generalQueue.length ∨ ∀ c, s.claims c = false) :
    serveClaims s = s := by
  refine serveClaims_of_admitted fun hg => ?_
  simp only [State.generalFree, Config.generalSlots, Bool.and_eq_true, beq_iff_eq] at hg
  obtain ⟨up, room⟩ := hg
  rcases h with notUp | full | none
  · exact absurd up notUp
  · exact absurd (of_decide_eq_true room) (Nat.not_lt.mpr full)
  · exact none

/-- After a grant that fills one slot the arbiter goes on with one slot fewer. -/
theorem serveClaims_of_grant {u : State} (hg : s.generalFree = true)
    (longer : u.generalQueue.length = s.generalQueue.length + 1)
    (grant : ∀ n, serveLoop (n + 1) s = serveLoop n u) : serveClaims s = serveClaims u := by
  have room : s.generalQueue.length < Config.generalSlots := by
    simp only [State.generalFree, Bool.and_eq_true, decide_eq_true_eq] at hg
    obtain ⟨_, room⟩ := hg
    exact room
  have slots : Config.generalSlots - s.generalQueue.length = Config.generalSlots - u.generalQueue.length + 1 := by omega
  rw [serveClaims, slots, grant, serveClaims]

theorem serveClaims_branch {p : PortIdx} (hg : s.generalFree = true) (hn : s.nextClaimant = some (.branch p)) :
    serveClaims s = serveClaims (grantBranch p s) :=
  serveClaims_of_grant hg (grantBranch_length (nextClaimant_claims hn)) fun n => by simp only [serveLoop, hg, hn, if_true]

theorem serveClaims_eventUnit (hg : s.generalFree = true) (hn : s.nextClaimant = some .eventUnit) :
    serveClaims s = serveClaims (grantEvent s) :=
  serveClaims_of_grant hg (grantEvent_length (nextClaimant_claims hn)) fun n => by simp only [serveLoop, hg, hn, if_true]

/-- A branch's oldest WRITE takes the slot and is consumed (R124, R142). -/
theorem grantBranch_eq {p : PortIdx} {w : UpWrite} {rest : List UpWrite} (hb : (s.port p).buffer = w :: rest) :
    grantBranch p s = refreshIdle p (({ s with
      generalQueue := s.generalQueue ++ [.write w], arbLast := .branch p } : State).setPort p { s.port p with
        buffer := rest
        link := { (s.port p).link with
          consumedA := (s.port p).link.consumedA + 1
          creditPending := (s.port p).link.creditPending || s.linkLive (.branch p) } }) := by
  have before : (s.setPort p { s.port p with buffer := rest }).port p = { s.port p with buffer := rest } :=
    State.port_setPort_self ..
  have kept : ({ s.setPort p { s.port p with buffer := rest } with
      generalQueue := s.generalQueue ++ [.write w], arbLast := .branch p } : State).port p =
        { s.port p with buffer := rest } := before
  simp only [grantBranch, hb, State.consume, placeGeneral, State.modPort_eq, State.modLink_eq, State.setLink_branch,
    State.linkEnd_branch, State.linkLive, State.setPort_generalQueue, kept]
  refine congrArg (refreshIdle p) ?_
  simp [State.setPort, LinkEnd.consume]

/-- The event unit's NOTICE takes the slot (R149, R150). -/
theorem grantEvent_eq {i : LineIdx} (hi : s.nextLine = some i) :
    grantEvent s = { s.setLine i { s.line i with state := .notified } with
      generalQueue := s.generalQueue ++ [.notice (s.line i).vector], arbLast := .eventUnit, lastLine := i } := by
  simp only [grantEvent, hi]
  rfl

/-- A READ of the aperture at the decoder's turn is answered in the slot that the arbiter left to it, whoever else claims (R52,
R56, R142). -/
theorem settle_read_at_turn {a : HostAddr} {n : Nat} {t : BitVec 6} {rest : List HostFrame}
    (hi : s.ingress = ⟨a, n, .read t⟩ :: rest) (hfree : s.generalFree = true) (turn : s.nextClaimant = some .decoder)
    (hd : s.fate ⟨a, n, .read t⟩ = .management) {bytes : List Byte}
    (hbytes : readBytes (s.headTaken true) (s.offsetOf a) n = some bytes) :
    settle s = decodeRun true { s.headTaken true with
      arbLast := .decoder, generalQueue := s.generalQueue ++ [.result t .ok bytes] } := by
  have claim : s.decoder.claim = .general := by simpa [State.claims] using nextClaimant_claims turn
  have canTake : s.canTake ⟨a, n, .read t⟩ .management = true := by
    simp only [State.canTake, State.decoderTurn, claim_again claim, hfree, turn]
    rfl
  have offset : (s.headTaken true).offsetOf a = s.offsetOf a := rfl
  rw [settle_taken (fun _ => .inr turn) hi hd canTake fun _ _ => claim]
  simp only [takeFate, manageRead, HostBody.isRead, offset, hbytes]
  rfl

end

/-- Settles O39: the next claimant by the turns, and what each grant does. -/
theorem admissionIsCyclic : Obligations.AdmissionIsCyclic := by
  unfold Obligations.AdmissionIsCyclic
  intro rank s turn first
  have turns : ∀ c, turn c = s.arbLast.turn c := by
    have ranks : ∀ c, rank c = c.rank := fun c => by cases c <;> rfl
    intro c
    simp only [turn, ranks, Claimant.turn]
  have next : ∀ {c}, first c → s.nextClaimant = some c := by
    rintro c ⟨claims, low⟩
    simp only [turns] at low
    exact nextClaimant_of_first claims low
  refine ⟨serveClaims_of_blocked, fun up room => ?_⟩
  have free : s.generalFree = true := by simp [State.generalFree, up, Config.generalSlots, room]
  refine ⟨fun p w rest hb isFirst => ?fromBuffer, fun i enabled pending low isFirst => ?fromLine, fun isFirst => ⟨?still, ?read⟩⟩
  case fromBuffer => rw [serveClaims_branch free (next isFirst), grantBranch_eq hb]
  case fromLine =>
    have eligible : ∀ j, (s.line j).eligible = true ↔ (s.line j).enable = true ∧ (s.line j).state = .pending := fun j => by
      simp [EventLine.eligible]
    have chosen : s.nextLine = some i := nextLine_of_first ((eligible i).mpr ⟨enabled, pending⟩) fun j hj =>
      ((eligible j).mp hj).elim (low j)
    rw [serveClaims_eventUnit free (next isFirst), grantEvent_eq chosen]
  case still => exact serveClaims_of_stuck fun _ => .inr (next isFirst)
  case read =>
    intro n a t rest r hi ht off hlo hoff hn h4 hn4 hr hend u
    have inside : ¬s.outside a := by
      simp only [State.outside, off] at hoff ⊢
      omega
    refine settle_read_at_turn hi free (next isFirst) (fate_inside (fresh_read ht) inside) ?_
    rw [readBytes, show s.offsetOf a = off from rfl, (readForm_eq_some_iff hn).mpr ⟨h4, hn4, hr, hend, rfl⟩]
    rfl

end Sys2Proof.Machine
end

section
/-! The grants of trunk loss (O32): which held WRITEs leave the lists while the trunk is in DOWN, what each port takes of them, and
the records of those that fail. A window's released and failed WRITEs are a front part of its list, so that one list for each
window says all that leaves. -/

namespace Sys2Proof.Machine

-- The theorems are checked one after the other, which bounds the memory that the check takes.
set_option Elab.async false

/-! ### A port that takes requests in order -/

/-- A port after several requests are placed in its queue, in order. -/
def PortBlock.withRequests (b : PortBlock) (l : List Queued) (now : Time) : PortBlock :=
  l.foldl (fun b q => b.withRequest q now) b

section
variable {b : PortBlock} {q : Queued} {l : List Queued} {now : Time}

theorem withRequests_append (l' : List Queued) :
    b.withRequests (l ++ l') now = (b.withRequests l now).withRequests l' now := List.foldl_append

theorem accepts_withRequests : (b.withRequests l now).state.accepts = b.state.accepts := by
  induction l generalizing b with
  | nil => rfl
  | cons q l ih => exact ih.trans (accepts_withRequest ..)

/-- Outside DOZE, and in UP without an idle deadline, a request only joins the queue. -/
theorem withRequest_awake (doze : b.state ≠ .doze) (up : b.state = .up → b.idle = none) :
    b.withRequest q now = { b with queue := b.queue ++ [q] } := by
  unfold PortBlock.withRequest
  split
  · rename_i h; exact absurd h doze
  · rename_i h; rw [← up h]
  all_goals rfl

theorem withRequests_awake (doze : b.state ≠ .doze) (up : b.state = .up → b.idle = none) :
    b.withRequests l now = { b with queue := b.queue ++ l } := by
  induction l generalizing b with
  | nil => simp [PortBlock.withRequests]
  | cons q l ih =>
    show (b.withRequest q now).withRequests l now = _
    rw [withRequest_awake doze up]
    refine (ih (b := { b with queue := b.queue ++ [q] }) doze up).trans ?_
    rw [List.append_assoc]
    rfl

/-- After a request a port is out of DOZE, and in UP without an idle deadline. -/
theorem awake_withRequest : (b.withRequest q now).state ≠ .doze ∧
    ((b.withRequest q now).state = .up → (b.withRequest q now).idle = none) := by
  unfold PortBlock.withRequest
  split <;> simp_all

/-- The first request wakes a port in DOZE and ends the idle time of one in UP; the others join the queue. -/
theorem withRequests_cons : b.withRequests (q :: l) now = { b.withRequest q now with queue := b.queue ++ q :: l } := by
  obtain ⟨doze, up⟩ := awake_withRequest (b := b) (q := q) (now := now)
  obtain ⟨queue, _⟩ := withRequest_queue b q now
  show (b.withRequest q now).withRequests l now = _
  rw [withRequests_awake doze up, queue, List.append_assoc]
  rfl

end

/-! ### What a loss leaves -/

/-- Beside hold lists, ports and the log, a grant in DOWN changes nothing but line 32, on which each record is an arrival. -/
structure Spared (s t : State) : Prop where
  side : BranchSide s t
  entries : t.entries = s.entries := by rfl
  sentOrder : t.sentOrder = s.sentOrder := by rfl
  replyLane : t.replyLane = s.replyLane := by rfl
  arbLast : t.arbLast = s.arbLast := by rfl
  lastLine : t.lastLine = s.lastLine := by rfl
  lines : ∀ i, i ≠ 32 → t.line i = s.line i := by exact fun _ _ => rfl

theorem Spared.refl (s : State) : Spared s s := { side := .refl s }

theorem Spared.trans {s t u : State} (h : Spared s t) (k : Spared t u) : Spared s u where
  side := h.side.trans k.side
  entries := k.entries.trans h.entries
  sentOrder := k.sentOrder.trans h.sentOrder
  replyLane := k.replyLane.trans h.replyLane
  arbLast := k.arbLast.trans h.arbLast
  lastLine := k.lastLine.trans h.lastLine
  lines i hi := (k.lines i hi).trans (h.lines i hi)

/-- Where the trunk is not in UP a fault is recorded and arrives on line 32, and no slot is granted (R141, R146, R160). -/
theorem recordFault_notUp {s : State} (h : s.trunkState ≠ .up) (k : FaultKind) (src : FaultSource) (w : Option WindowIdx)
    (t : Option (BitVec 6)) (a : Option HostAddr) (c : Option FaultCount) :
    recordFault k src w t a c s =
      (takeFault ⟨k, src, w, t, a, c, s.time⟩ s).setLine 32 (s.line 32).arrive := by
  unfold recordFault arrival
  rw [takeFault_eq]
  exact serveClaims_of_blocked (.inl h)

theorem spared_recordFault {s : State} (h : s.trunkState ≠ .up) (k : FaultKind) (src : FaultSource) (w : Option WindowIdx)
    (t : Option (BitVec 6)) (a : Option HostAddr) (c : Option FaultCount) : Spared s (recordFault k src w t a c s) where
  side := recordFault_branchSide ..
  entries := recordFault_entries ..
  sentOrder := recordFault_sentOrder ..
  replyLane := recordFault_replyLane ..
  arbLast := by rw [recordFault_notUp h, takeFault_eq]; rfl
  lastLine := by rw [recordFault_notUp h, takeFault_eq]; rfl
  lines i hi := by rw [recordFault_notUp h, takeFault_eq, State.line_setLine_ne _ _ _ _ (Ne.symm hi)]; rfl

/-- A state of the loss of `s` once its READs are gone: the trunk in DOWN, WRITEs alone in the hold lists, and all that the
examination of a head looks at as in `s`. -/
structure Bereft (s u : State) : Prop where
  down : u.trunkState = .down
  writes : ∀ w, ∀ h ∈ u.holdList w, h.body.isRead = false
  windows : ∀ w, u.window w = s.window w
  time : u.time = s.time
  accepts : ∀ p, (u.port p).state.accepts = (s.port p).state.accepts

namespace Bereft

variable {s u v : State}

/-- Lists that lose a front part stay lists of WRITEs. -/
theorem next (h : Bereft s u) (side : BranchSide u v) (lists : ∀ w, ∃ front, u.holdList w = front ++ v.holdList w)
    (accepts : ∀ p, (v.port p).state.accepts = (u.port p).state.accepts) : Bereft s v where
  down := side.trunkState.trans h.down
  writes w x hx := by
    obtain ⟨front, list⟩ := lists w
    exact h.writes w x (list ▸ List.mem_append_right front hx)
  windows w := by rw [← h.windows w, State.window, side.windows]; rfl
  time := side.time.trans h.time
  accepts p := (accepts p).trans (h.accepts p)

theorem notUp (h : Bereft s u) : u.trunkState ≠ .up := by rw [h.down]; decide

theorem failure (h : Bereft s u) (w : WindowIdx) (x : Held) : u.releaseFailure w x = s.releaseFailure w x :=
  releaseFailure_congr (h.windows w) (h.accepts _) x

end Bereft

/-- The record of a WRITE that fails its check as the head of a list (R28, R161). -/
def State.lossRecord (s : State) (w : WindowIdx) (h : Held) : Option FaultRecord :=
  (s.releaseFailure w h).map fun x => ⟨x.1, .decoder, some w, none, some h.address, none, s.time⟩

/-- A request of a window as its port's queue takes it (R16). -/
def State.translated (s : State) (w : WindowIdx) (h : Held) : Queued :=
  ⟨BitVec.ofNat 32 (h.address.toNat - (s.window w).base.toNat + (s.window w).target.toNat), h.length, h.body⟩

/-! ### The examination -/

/-- A front part of one list fails and leaves with its records. -/
structure Examined (s : State) (w : WindowIdx) (front : List Held) (u v : State) : Prop where
  list : u.holdList w = front ++ v.holdList w
  others : ∀ x, x ≠ w → v.holdList x = u.holdList x
  ports : v.ports = u.ports
  spared : Spared u v
  logged : Logged (front.filterMap (s.lossRecord w)) u v

theorem Examined.refl (s : State) (w : WindowIdx) (u : State) : Examined s w [] u u :=
  ⟨rfl, fun _ _ => rfl, rfl, .refl u, logged_of_same rfl rfl⟩

theorem Examined.trans {s u v x : State} {w : WindowIdx} {front more : List Held} (h : Examined s w front u v)
    (k : Examined s w more v x) : Examined s w (front ++ more) u x where
  list := by rw [h.list, k.list, List.append_assoc]
  others y hy := (k.others y hy).trans (h.others y hy)
  ports := k.ports.trans h.ports
  spared := h.spared.trans k.spared
  logged := by rw [List.filterMap_append]; exact h.logged.trans k.logged

theorem Examined.lists {s u v : State} {w : WindowIdx} {front : List Held} (h : Examined s w front u v) (x : WindowIdx) :
    ∃ front, u.holdList x = front ++ v.holdList x := by
  by_cases hx : x = w
  · exact ⟨front, hx ▸ h.list⟩
  · exact ⟨[], (h.others x hx).symm⟩

theorem Examined.bereft {s u v : State} {w : WindowIdx} {front : List Held} (h : Examined s w front u v)
    (hu : Bereft s u) : Bereft s v :=
  hu.next h.spared.side h.lists fun p => by rw [State.port, h.ports]; rfl

/-- A failing WRITE at the head leaves with its record (R28). -/
theorem examined_failing {s u : State} {w : WindowIdx} {h : Held} {rest : List Held} (hu : Bereft s u)
    (hl : u.holdList w = h :: rest) {k : FaultKind} {st : Status} (hf : s.releaseFailure w h = some (k, st)) :
    Examined s w [h] u (recordFault k .decoder (some w) none (some h.address) none (u.setHoldList w rest)) := by
  have notUp : (u.setHoldList w rest).trunkState ≠ .up := hu.notUp
  have removed : Spared u (u.setHoldList w rest) := { side := by constructor <;> rfl }
  have list : ∀ x, (recordFault k .decoder (some w) none (some h.address) none (u.setHoldList w rest)).holdList x =
      (u.setHoldList w rest).holdList x := fun x => recordFault_holdList ..
  refine ⟨?_, fun x hx => ?_, recordFault_ports (fun hg => ?_) .., removed.trans (spared_recordFault notUp ..), ?_⟩
  · rw [list, State.holdList_setHoldList_self, hl]
    rfl
  · rw [list, State.holdList_setHoldList_ne _ _ _ _ (Ne.symm hx)]
  · rw [State.generalFree, Bool.and_eq_true, beq_iff_eq] at hg
    exact absurd hg.left notUp
  · have logged := (logged_of_same (s := u) (t := u.setHoldList w rest) rfl rfl).trans
      (logged_recordFault k .decoder (some w) none (some h.address) none (u.setHoldList w rest))
    simpa [State.lossRecord, hf, ← hu.time] using logged

/-- The examination of a window in PASS: heads fail until one passes or the list is empty (R27 to R29). -/
theorem examined_examineHeads {s : State} {w : WindowIdx} (enabled : (s.window w).enable = true)
    (pass : (s.window w).mode = .pass) {l : List Held} {u : State} (hu : Bereft s u) (hl : u.holdList w = l) :
    ∃ front, Examined s w front u (examineHeads w u) ∧ (∀ x ∈ front, s.releaseFailure w x ≠ none) ∧
      ∀ x, ((examineHeads w u).holdList w).head? = some x → s.releaseFailure w x = none := by
  induction l generalizing u with
  | nil =>
    have same : examineHeads w u = u := examineHeads_of_not_drain fun h => by
      obtain ⟨_, _, list⟩ := windowState_eq_drain_iff.mp h
      exact list hl
    rw [same]
    exact ⟨[], .refl .., by simp, by simp [hl]⟩
  | cons h rest ih =>
    cases hf : s.releaseFailure w h with
    | none =>
      rw [examineHeads_of_passing hl (by rw [hu.failure, hf])]
      refine ⟨[], .refl .., by simp, fun x hx => ?_⟩
      rw [hl, List.head?_cons] at hx
      cases hx
      exact hf
    | some x =>
      obtain ⟨k, st⟩ := x
      have drains : u.windowState w = .drain :=
        windowState_eq_drain_iff.mpr ⟨by rw [hu.windows, enabled], by rw [hu.windows, pass], by simp [hl]⟩
      have one := examined_failing hu hl hf
      obtain ⟨data, body⟩ : ∃ d, h.body = .write d := by
        have write := hu.writes w h (by simp [hl])
        cases hb : h.body with
        | read i => simp [hb, ReqBody.isRead] at write
        | write d => exact ⟨d, rfl⟩
      rw [examineHeads_of_failing drains hl (by rw [hu.failure, hf])]
      simp only [endHeld, body, State.bodyTicket]
      obtain ⟨front, examined, fail, passes⟩ := ih (one.bereft hu) (by
        rw [recordFault_holdList, State.holdList_setHoldList_self])
      refine ⟨h :: front, one.trans examined, fun x hx => ?_, passes⟩
      rcases List.mem_cons.mp hx with rfl | hx
      · rw [hf]; exact Option.some_ne_none _
      · exact fail x hx

end Sys2Proof.Machine
end

section
/-! The branch egress slot arbiters at trunk loss (O32): the grants of one port, and of all four in port order. -/

namespace Sys2Proof.Machine

-- The theorems are checked one after the other, which bounds the memory that the check takes.
set_option Elab.async false

/-! ### What leaves the lists -/

section
variable (s : State) (left : WindowIdx → List Held) (p : PortIdx)

/-- What leaves the list of a window, where the window names the port. -/
def State.lossOn (w : WindowIdx) : List Held := if (s.window w).portIdx = p then left w else []

/-- The requests that a port takes: of what leaves its windows' lists, those that pass, window by window. -/
def State.lossPlaced : List Queued :=
  (List.finRange 24).flatMap fun w =>
    ((s.lossOn left p w).filter fun h => (s.releaseFailure w h).isNone).map (s.translated w)

/-- The records of a port's windows: of what leaves their lists, those that fail, window by window. -/
def State.lossRecords : List FaultRecord :=
  (List.finRange 24).flatMap fun w => (s.lossOn left p w).filterMap (s.lossRecord w)

end

/-- What the arbiters of the ports `ps` do at the loss of `s`: the front part `left` of each list of theirs leaves, beginning
with a head that passes and ending before another, lower windows first; each port takes what passes, and the log what fails. -/
structure Loss (s : State) (ps : List PortIdx) (left : WindowIdx → List Held) (u v : State) : Prop where
  lists : ∀ w, u.holdList w = left w ++ v.holdList w
  own : ∀ w, left w ≠ [] → (s.window w).enable = true ∧ (s.window w).mode = .pass ∧ (s.window w).portIdx ∈ ps
  head : ∀ w h, (left w).head? = some h → s.releaseFailure w h = none
  next : ∀ w h, left w ≠ [] → (v.holdList w).head? = some h → s.releaseFailure w h = none
  order : ∀ x w h, x < w → (s.window x).portIdx = (s.window w).portIdx → left w ≠ [] → (s.window x).enable = true →
    (s.window x).mode = .pass → (v.holdList x).head? = some h → s.releaseFailure x h ≠ none
  ports : ∀ p, v.port p = (u.port p).withRequests (s.lossPlaced left p) s.time
  room : ∀ p, s.lossPlaced left p ≠ [] → (s.port p).state.accepts = true ∧ (v.port p).queue.length ≤ 8
  spared : Spared u v
  logged : Logged (ps.flatMap (s.lossRecords left)) u v

section
variable {s u v : State} {left left' : WindowIdx → List Held} {ps qs : List PortIdx} {p : PortIdx}

/-- A port whose windows lose nothing takes nothing and fails nothing. -/
theorem lossPlaced_of_none (h : s.lossOn left p = fun _ => []) : s.lossPlaced left p = [] := by
  simp [State.lossPlaced, h]

theorem lossRecords_of_none (h : s.lossOn left p = fun _ => []) : s.lossRecords left p = [] := by
  simp [State.lossRecords, h]

/-- The windows of another port lose nothing. -/
theorem lossOn_of_other (own : ∀ w, left w ≠ [] → (s.window w).portIdx ∈ ps) (hp : p ∉ ps) :
    s.lossOn left p = fun _ => [] := by
  funext w
  unfold State.lossOn
  split
  · rename_i h
    by_contra hw
    exact hp (h ▸ own w hw)
  · rfl

theorem Loss.owned (h : Loss s ps left u v) (w : WindowIdx) (hw : left w ≠ []) : (s.window w).portIdx ∈ ps := by
  obtain ⟨_, _, own⟩ := h.own w hw
  exact own

theorem Loss.bereft (h : Loss s ps left u v) (hu : Bereft s u) : Bereft s v :=
  hu.next h.spared.side (fun w => ⟨left w, h.lists w⟩) fun p => by rw [h.ports, accepts_withRequests]

/-- Where no slot is granted nothing leaves. -/
theorem loss_nothing (s : State) (ps : List PortIdx) (u : State) : Loss s ps (fun _ => []) u u := by
  have none : ∀ p, s.lossOn (fun _ => []) p = fun _ => [] := fun p => funext fun _ => ite_self []
  refine ⟨fun _ => rfl, by simp, by simp, by simp, by simp, fun p => ?_, fun p h => absurd (lossPlaced_of_none (none p)) h,
    .refl u, ?_⟩
  · rw [lossPlaced_of_none (none p)]
    rfl
  · have records : ps.flatMap (s.lossRecords fun _ => []) = [] := by simp [lossRecords_of_none (none _)]
    rw [records]
    exact logged_of_same rfl rfl

/-! ### One grant -/

/-- What a window adds in front, where the lower ones add nothing. -/
theorem flatMap_finRange_first {α : Type} {n : Nat} {f g : Fin n → List α} {i : Fin n} {a : List α}
    (low : ∀ j, j < i → g j = []) (here : f i = a ++ g i) (others : ∀ j, j ≠ i → f j = g j) :
    (List.finRange n).flatMap f = a ++ (List.finRange n).flatMap g := by
  obtain ⟨before, behind, split⟩ := List.append_of_mem (List.mem_finRange i)
  have sorted : (List.finRange n).Pairwise (· < ·) := List.pairwise_lt_finRange n
  rw [split] at sorted ⊢
  obtain ⟨_, later, earlier⟩ := List.pairwise_append.mp sorted
  obtain ⟨above, _⟩ := List.pairwise_cons.mp later
  have noneF : before.flatMap f = [] := List.flatMap_eq_nil_iff.mpr fun j hj => by
    have lt := earlier j hj i List.mem_cons_self
    rw [others j (ne_of_lt lt), low j lt]
  have noneG : before.flatMap g = [] := List.flatMap_eq_nil_iff.mpr fun j hj => low j (earlier j hj i List.mem_cons_self)
  have same : behind.flatMap f = behind.flatMap g := List.flatMap_congr fun j hj => others j (ne_of_gt (above j hj))
  rw [List.flatMap_append, List.flatMap_append, List.flatMap_cons, List.flatMap_cons, noneF, noneG, same, here]
  simp

/-- A window claims a port's queue by its record and the head of its list (R33). -/
theorem Bereft.claims_iff (hu : Bereft s u) {w : WindowIdx} : u.windowClaims p w = true ↔
    (s.window w).enable = true ∧ (s.window w).mode = .pass ∧ (s.window w).portIdx = p ∧
      ∃ h, (u.holdList w).head? = some h ∧ s.releaseFailure w h = none := by
  rw [windowClaims_eq]
  simp only [Bool.and_eq_true, decide_eq_true_eq, windowState_eq_drain_iff, hu.windows, hu.failure, Option.any_eq_true,
    Option.isNone_iff_eq_none]
  constructor
  · rintro ⟨⟨⟨enabled, pass, _⟩, port⟩, h⟩
    exact ⟨enabled, pass, port, h⟩
  · rintro ⟨enabled, pass, port, h, head, passes⟩
    exact ⟨⟨⟨enabled, pass, fun empty => by simp [empty] at head⟩, port⟩, h, head, passes⟩

/-- The window that is granted claims, and no lower one does (R34). -/
theorem lowest_of_claimingWindow {w : WindowIdx} (h : u.claimingWindow p = some w) :
    u.windowClaims p w = true ∧ ∀ x, x < w → u.windowClaims p x = false := by
  obtain ⟨claims, i, hi, at', low⟩ := List.find?_eq_some_iff_getElem.mp h
  refine ⟨claims, fun x hx => ?_⟩
  have index : i = w.val := by simpa using congrArg Fin.val at'
  simpa using low x.val (index ▸ hx)

/-- The release of a WRITE that passes, in a state of the loss (R16, R30). -/
theorem release_bereft (hu : Bereft s u) {w : WindowIdx} (hp : (s.window w).portIdx = p) {h : Held} {rest : List Held}
    (hl : u.holdList w = h :: rest) (pass : s.releaseFailure w h = none) : release w u =
      (u.setHoldList w rest).setPort p ((u.port p).withRequest (s.translated w h) s.time) := by
  obtain ⟨data, body⟩ : ∃ d, h.body = .write d := by
    have write := hu.writes w h (by simp [hl])
    cases hb : h.body with
    | read i => simp [hb, ReqBody.isRead] at write
    | write d => exact ⟨d, rfl⟩
  have above : (s.window w).base.toNat ≤ h.address.toNat := by
    by_contra below
    have outside : (s.window w).contains h.address = false := contains_eq_false_iff.mpr (.inl (Nat.not_le.mp below))
    simp [State.releaseFailure, outside] at pass
  rw [release_write hl body, placeEgress_eq, hu.windows, hp, translate_eq above]
  show _ = (u.setHoldList w rest).setPort p ((u.port p).withRequest _ s.time)
  rw [← hu.time]
  rfl

/-- One grant: the head of the lowest window that claims goes to its port, and the failing heads behind it end (R27 to R30, R34). -/
structure Grant (s : State) (p : PortIdx) (w : WindowIdx) (h : Held) (front : List Held) (u v : State) : Prop where
  enabled : (s.window w).enable = true
  pass : (s.window w).mode = .pass
  named : (s.window w).portIdx = p
  list : u.holdList w = h :: (front ++ v.holdList w)
  others : ∀ x, x ≠ w → v.holdList x = u.holdList x
  passes : s.releaseFailure w h = none
  fail : ∀ y ∈ front, s.releaseFailure w y ≠ none
  next : ∀ y, (v.holdList w).head? = some y → s.releaseFailure w y = none
  lower : ∀ x, x < w → (s.window x).portIdx = p → (s.window x).enable = true → (s.window x).mode = .pass →
    ∀ y, (u.holdList x).head? = some y → s.releaseFailure x y ≠ none
  taken : v.port p = (u.port p).withRequest (s.translated w h) s.time
  ports : ∀ q, q ≠ p → v.port q = u.port q
  accepts : (s.port p).state.accepts = true
  room : (u.port p).queue.length < 8
  spared : Spared u v
  logged : Logged (front.filterMap (s.lossRecord w)) u v

/-- The arbiter's next grant to a port in a state of the loss. -/
theorem grant_of_claimingWindow (hu : Bereft s u) (hf : u.egressFree p = true) {w : WindowIdx}
    (hc : u.claimingWindow p = some w) : ∃ h front, Grant s p w h front u (examineHeads w (release w u)) := by
  obtain ⟨claims, low⟩ := lowest_of_claimingWindow hc
  obtain ⟨enabled, pass, named, h, head, passes⟩ := hu.claims_iff.mp claims
  obtain ⟨rest, hl⟩ := List.head?_eq_some_iff.mp head
  generalize hr : release w u = r
  rw [release_bereft hu named hl passes] at hr
  have list : ∀ x, r.holdList x = if w = x then rest else u.holdList x := fun x => by
    rw [← hr]
    exact State.holdList_setHoldList ..
  have port : ∀ q, r.port q = if p = q then (u.port p).withRequest (s.translated w h) s.time else u.port q := fun q => by
    rw [← hr, State.port_setPort]
    rfl
  have moved : Spared u r := hr ▸ { side := by constructor <;> rfl }
  have still : Logged [] u r := hr ▸ logged_of_same rfl rfl
  have bereft : Bereft s r := hu.next moved.side (fun x => by
    rw [list]
    split
    · rename_i hx; exact ⟨[h], hx ▸ hl⟩
    · exact ⟨[], rfl⟩) fun q => by
    rw [port]
    split
    · rename_i hq; exact hq ▸ accepts_withRequest ..
    · rfl
  obtain ⟨front, examined, fail, next⟩ := examined_examineHeads enabled pass bereft (l := rest) (by rw [list, if_pos rfl])
  have ports : ∀ q, (examineHeads w r).port q = r.port q := fun q => by rw [State.port, examined.ports]; rfl
  refine ⟨h, front, enabled, pass, named, ?_, fun x hx => ?_, passes, fail, next, fun x hx named' enabled' pass' y hy hp => ?_,
    ?_, fun q hq => ?_, (hu.accepts p).symm.trans (egressFree_accepts hf), egress_room hf, moved.trans examined.spared,
    still.trans examined.logged⟩
  · rw [hl, ← examined.list, list, if_pos rfl]
  · rw [examined.others x hx, list, if_neg (Ne.symm hx)]
  · have claims' := hu.claims_iff.mpr ⟨enabled', pass', named', y, hy, hp⟩
    rw [low x hx] at claims'
    cases claims'
  · rw [ports, port, if_pos rfl]
  · rw [ports, port, if_neg (Ne.symm hq)]

theorem Grant.bereft {w : WindowIdx} {h : Held} {front : List Held} (g : Grant s p w h front u v) (hu : Bereft s u) :
    Bereft s v := by
  refine hu.next g.spared.side (fun x => ?_) fun q => ?_
  · by_cases hx : x = w
    · exact ⟨h :: front, by rw [hx, g.list]; rfl⟩
    · exact ⟨[], (g.others x hx).symm⟩
  · by_cases hq : q = p
    · rw [hq, g.taken, accepts_withRequest]
    · rw [g.ports q hq]

/-! ### All grants of a port -/

/-- What leaves the lists, with a front part of one list before it. -/
def frontOf (w : WindowIdx) (front : List Held) (left : WindowIdx → List Held) : WindowIdx → List Held :=
  Function.update left w (front ++ left w)

theorem frontOf_self (w : WindowIdx) (front : List Held) (left : WindowIdx → List Held) :
    frontOf w front left w = front ++ left w := Function.update_self ..

theorem frontOf_of_ne {w x : WindowIdx} (h : x ≠ w) (front : List Held) (left : WindowIdx → List Held) :
    frontOf w front left x = left x := Function.update_of_ne h ..

theorem Grant.lossOn_self {w : WindowIdx} {h : Held} {front : List Held} (g : Grant s p w h front u v) :
    s.lossOn (frontOf w (h :: front) left) p w = h :: (front ++ s.lossOn left p w) := by
  simp [State.lossOn, g.named, frontOf_self]

theorem lossOn_frontOf_of_ne {w x : WindowIdx} (hx : x ≠ w) (front : List Held) :
    s.lossOn (frontOf w front left) p x = s.lossOn left p x := by
  simp only [State.lossOn, frontOf_of_ne hx]

section
variable {w : WindowIdx} {h : Held} {front : List Held} {t : State} (g : Grant s p w h front u v)
  (later : Loss s [p] left v t)
include g later

/-- A lower window does not come to claim: its failing head stays (R34). -/
theorem Grant.below {x : WindowIdx} (hx : x < w) : left x = [] := by
  by_contra some'
  obtain ⟨enabled, pass, named⟩ := later.own x some'
  obtain ⟨y, more, hy⟩ := List.exists_cons_of_ne_nil some'
  have head : (u.holdList x).head? = some y := by rw [← g.others x (ne_of_lt hx), later.lists x, hy]; rfl
  exact g.lower x hx (List.mem_singleton.mp named) enabled pass y head (later.head x y (by rw [hy]; rfl))

theorem Grant.lossOn_below {x : WindowIdx} (hx : x < w) : s.lossOn left p x = [] := by
  simp only [State.lossOn, g.below later hx, ite_self]

/-- The request that is released stands before those released later. -/
theorem Grant.lossPlaced : s.lossPlaced (frontOf w (h :: front) left) p = s.translated w h :: s.lossPlaced left p := by
  refine flatMap_finRange_first (i := w) (a := [s.translated w h]) (fun x hx => ?_) ?_ fun x hx => ?_
  · rw [g.lossOn_below later hx]; rfl
  · have dropped : front.filter (fun y => (s.releaseFailure w y).isNone) = [] :=
      List.filter_eq_nil_iff.mpr fun y hy => by simpa using g.fail y hy
    rw [g.lossOn_self, List.filter_cons, List.filter_append, dropped, g.passes]
    rfl
  · rw [lossOn_frontOf_of_ne hx]

/-- The records of the grant stand before those of later grants. -/
theorem Grant.lossRecords :
    s.lossRecords (frontOf w (h :: front) left) p = front.filterMap (s.lossRecord w) ++ s.lossRecords left p := by
  refine flatMap_finRange_first (i := w) (fun x hx => ?_) ?_ fun x hx => ?_
  · rw [g.lossOn_below later hx]; rfl
  · have passing : s.lossRecord w h = none := by simp [State.lossRecord, g.passes]
    rw [g.lossOn_self, List.filterMap_cons, passing, List.filterMap_append]
  · rw [lossOn_frontOf_of_ne hx]

theorem Grant.own (x : WindowIdx) (hx : frontOf w (h :: front) left x ≠ []) :
    (s.window x).enable = true ∧ (s.window x).mode = .pass ∧ (s.window x).portIdx ∈ [p] := by
  by_cases hw : x = w
  · subst hw
    exact ⟨g.enabled, g.pass, List.mem_singleton.mpr g.named⟩
  · rw [frontOf_of_ne hw] at hx
    exact later.own x hx

/-- A port that is not granted takes nothing. -/
theorem Grant.lossPlaced_other {q : PortIdx} (hq : q ≠ p) : s.lossPlaced (frontOf w (h :: front) left) q = [] := by
  refine lossPlaced_of_none (lossOn_of_other (ps := [p]) (fun x hx => ?_) (by simpa using hq))
  obtain ⟨_, _, named⟩ := g.own later x hx
  exact named

/-- One grant and the later ones of its port. -/
theorem Grant.loss : Loss s [p] (frontOf w (h :: front) left) u t where
  lists x := by
    by_cases hx : x = w
    · subst hx
      rw [frontOf_self, g.list, later.lists x]
      simp
    · rw [frontOf_of_ne hx, ← g.others x hx, later.lists x]
  own := g.own later
  head x y hy := by
    by_cases hx : x = w
    · subst hx
      rw [frontOf_self] at hy
      cases hy
      exact g.passes
    · rw [frontOf_of_ne hx] at hy
      exact later.head x y hy
  next x y hne hy := by
    by_cases hx : x = w
    · subst hx
      by_cases more : left x = []
      · exact g.next y (by rw [later.lists x, more]; exact hy)
      · exact later.next x y more hy
    · rw [frontOf_of_ne hx] at hne
      exact later.next x y hne hy
  order x y z lt same hne enabled pass hz := by
    by_cases hy : y = w
    · subst hy
      refine g.lower x lt (same.trans g.named) enabled pass z ?_
      rw [← g.others x (ne_of_lt lt), later.lists x, g.below later lt]
      exact hz
    · rw [frontOf_of_ne hy] at hne
      exact later.order x y z lt same hne enabled pass hz
  ports q := by
    by_cases hq : q = p
    · subst hq
      rw [g.lossPlaced later, later.ports, g.taken]
      rfl
    · have none : s.lossPlaced left q = [] := lossPlaced_of_none (lossOn_of_other later.owned (by simpa using hq))
      rw [g.lossPlaced_other later hq, later.ports, none, g.ports q hq]
  room q hne := by
    by_cases hq : q = p
    · subst hq
      refine ⟨g.accepts, ?_⟩
      by_cases more : s.lossPlaced left q = []
      · obtain ⟨queue, _⟩ := withRequest_queue (u.port q) (s.translated w h) s.time
        rw [later.ports, more, g.taken]
        show ((u.port q).withRequest _ _).queue.length ≤ 8
        rw [queue, List.length_append]
        exact g.room
      · obtain ⟨_, room⟩ := later.room q more
        exact room
    · exact absurd (g.lossPlaced_other later hq) hne
  spared := g.spared.trans later.spared
  logged := by simpa [g.lossRecords later] using g.logged.trans later.logged

end

/-- The grants of one port (R34). -/
theorem loss_grantLoop (p : PortIdx) (n : Nat) (hu : Bereft s u) : ∃ left, Loss s [p] left u (grantLoop p n u) := by
  induction n generalizing u with
  | zero => exact ⟨_, loss_nothing ..⟩
  | succ n ih =>
    simp only [grantLoop]
    split
    · rename_i hf
      split
      · rename_i w hc
        obtain ⟨h, front, grant⟩ := grant_of_claimingWindow hu hf hc
        obtain ⟨left, later⟩ := ih (grant.bereft hu)
        exact ⟨_, grant.loss later⟩
      · exact ⟨_, loss_nothing ..⟩
    · exact ⟨_, loss_nothing ..⟩

/-! ### All ports -/

section
variable {t : State} (h : Loss s ps left u v) (k : Loss s qs left' v t) (disjoint : ∀ p ∈ ps, p ∉ qs)
include h k disjoint

/-- The grants of different ports concern different windows. -/
theorem Loss.apart (w : WindowIdx) :
    (s.window w).portIdx ∈ ps ∧ left' w = [] ∨ (s.window w).portIdx ∉ ps ∧ left w = [] := by
  by_cases hw : (s.window w).portIdx ∈ ps
  · exact .inl ⟨hw, by_contra fun hne => disjoint _ hw (k.owned w hne)⟩
  · exact .inr ⟨hw, by_contra fun hne => hw (h.owned w hne)⟩

/-- So each port has what its own grants gave it. -/
theorem Loss.lossOn_append (p : PortIdx) :
    p ∈ ps ∧ s.lossOn (fun w => left w ++ left' w) p = s.lossOn left p ∧ (s.lossOn left' p = fun _ => []) ∨
    p ∉ ps ∧ s.lossOn (fun w => left w ++ left' w) p = s.lossOn left' p ∧ (s.lossOn left p = fun _ => []) := by
  by_cases hp : p ∈ ps
  · refine .inl ⟨hp, funext fun w => ?_, lossOn_of_other k.owned (disjoint p hp)⟩
    unfold State.lossOn
    split
    · rename_i hw
      rcases h.apart k disjoint w with ⟨_, none⟩ | ⟨hn, _⟩
      · simp only [none, List.append_nil]
      · exact absurd (hw ▸ hp) hn
    · rfl
  · refine .inr ⟨hp, funext fun w => ?_, lossOn_of_other h.owned hp⟩
    unfold State.lossOn
    split
    · rename_i hw
      rcases h.apart k disjoint w with ⟨hm, _⟩ | ⟨_, none⟩
      · exact absurd (hw ▸ hm) hp
      · simp only [none, List.nil_append]
    · rfl

theorem Loss.lossPlaced_append (p : PortIdx) :
    s.lossPlaced (fun w => left w ++ left' w) p = s.lossPlaced left p ++ s.lossPlaced left' p := by
  rcases h.lossOn_append k disjoint p with ⟨_, same, none⟩ | ⟨_, same, none⟩
  · rw [lossPlaced_of_none none, List.append_nil, State.lossPlaced, same]
    rfl
  · rw [lossPlaced_of_none none, List.nil_append, State.lossPlaced, same]
    rfl

theorem Loss.lossRecords_append : (ps ++ qs).flatMap (s.lossRecords fun w => left w ++ left' w) =
    ps.flatMap (s.lossRecords left) ++ qs.flatMap (s.lossRecords left') := by
  rw [List.flatMap_append]
  refine congrArg₂ _ (List.flatMap_congr fun p hp => ?_) (List.flatMap_congr fun p hp => ?_)
  · rcases h.lossOn_append k disjoint p with ⟨_, same, _⟩ | ⟨hn, _⟩
    · rw [State.lossRecords, same]
      rfl
    · exact absurd hp hn
  · rcases h.lossOn_append k disjoint p with ⟨hm, _⟩ | ⟨_, same, _⟩
    · exact absurd hp (disjoint p hm)
    · rw [State.lossRecords, same]
      rfl

/-- The grants of some ports, and then of others. -/
theorem Loss.trans : Loss s (ps ++ qs) (fun w => left w ++ left' w) u t where
  lists w := by rw [h.lists w, k.lists w, List.append_assoc]
  own w hw := by
    rcases h.apart k disjoint w with ⟨_, none⟩ | ⟨_, none⟩
    · obtain ⟨enabled, pass, named⟩ := h.own w (by simpa [none] using hw)
      exact ⟨enabled, pass, List.mem_append_left _ named⟩
    · obtain ⟨enabled, pass, named⟩ := k.own w (by simpa [none] using hw)
      exact ⟨enabled, pass, List.mem_append_right _ named⟩
  head w y hy := by
    rcases h.apart k disjoint w with ⟨_, none⟩ | ⟨_, none⟩
    · exact h.head w y (by simpa [none] using hy)
    · exact k.head w y (by simpa [none] using hy)
  next w y hw hy := by
    rcases h.apart k disjoint w with ⟨_, none⟩ | ⟨_, none⟩
    · exact h.next w y (by simpa [none] using hw) (by rw [k.lists w, none]; exact hy)
    · exact k.next w y (by simpa [none] using hw) hy
  order x w y lt same hw enabled pass hy := by
    rcases h.apart k disjoint w with ⟨hm, none⟩ | ⟨_, none⟩
    · have still : left' x = [] := by_contra fun hne => disjoint _ hm (same ▸ k.owned x hne)
      exact h.order x w y lt same (by simpa [none] using hw) enabled pass (by rw [k.lists x, still]; exact hy)
    · exact k.order x w y lt same (by simpa [none] using hw) enabled pass hy
  ports p := by rw [k.ports, h.ports, h.lossPlaced_append k disjoint, withRequests_append]
  room p hp := by
    rw [h.lossPlaced_append k disjoint] at hp
    rcases h.lossOn_append k disjoint p with ⟨_, _, none⟩ | ⟨_, _, none⟩
    · rw [lossPlaced_of_none none, List.append_nil] at hp
      rw [k.ports, lossPlaced_of_none none]
      exact h.room p hp
    · rw [lossPlaced_of_none none, List.nil_append] at hp
      exact k.room p hp
  spared := h.spared.trans k.spared
  logged := by rw [h.lossRecords_append k disjoint]; exact h.logged.trans k.logged

end

/-- The arbiters of different ports one after the other. -/
theorem loss_foldl_grantWindows (hn : ps.Nodup) (hu : Bereft s u) :
    ∃ left, Loss s ps left u (ps.foldl (fun u p => grantWindows p u) u) := by
  induction ps generalizing u with
  | nil => exact ⟨_, loss_nothing ..⟩
  | cons p ps ih =>
    obtain ⟨fresh, hn⟩ := List.nodup_cons.mp hn
    obtain ⟨left, first⟩ := loss_grantLoop p (Config.egressSlots - (u.port p).queue.length) hu
    obtain ⟨left', later⟩ := ih hn (first.bereft hu)
    exact ⟨_, first.trans later fun q hq => by rwa [List.mem_singleton.mp hq]⟩

/-- The arbiters of all four ports (log 16). -/
theorem loss_grantAll (hu : Bereft s u) : ∃ left, Loss s (List.finRange 4) left u (grantAll u) :=
  loss_foldl_grantWindows (List.nodup_finRange 4) hu

end

end Sys2Proof.Machine
end

section
/-! The loss of the trunk (O32): the record of its cause, the lines, the look at each port's idleness, and the whole happening. -/

namespace Sys2Proof.Machine

-- The theorems are checked one after the other, which bounds the memory that the check takes.
set_option Elab.async false

/-! ### Idle ports -/

/-- A port as the look at its idleness leaves it, where no entry works for it (R113, R114). -/
def PortBlock.rested (b : PortBlock) (now : Time) : PortBlock :=
  if b.state = .up then
    if b.queue ≠ [] ∨ b.buffer ≠ [] then { b with idle := none }
    else if b.dozeRequested then
      { b with state := .dozeWait, idle := none, dozeRequested := false, dozeReqDue := true, wakeDue := false }
    else if b.idle = none ∧ b.autoDoze ≠ 0 then { b with idle := some (now + 1000 * b.autoDoze.setWidth 32) }
    else b
  else b

section
variable {s : State}

theorem refreshIdle_free (free : ∀ i, (s.entry i).live = none) (p : PortIdx) :
    refreshIdle p s = s.setPort p ((s.port p).rested s.time) := by
  have idle : s.portIdle p = true ↔ ¬((s.port p).queue ≠ [] ∨ (s.port p).buffer ≠ []) := by
    rw [portIdle_iff, not_or, not_not, not_not]
    exact ⟨fun ⟨queue, buffer, _⟩ => ⟨queue, buffer⟩, fun ⟨queue, buffer⟩ =>
      ⟨queue, buffer, fun i => worksFor_of_free (free i) p⟩⟩
  by_cases up : (s.port p).state = .up
  · by_cases rest : s.portIdle p = true
    · simp only [refreshIdle, PortBlock.rested, if_pos up, if_pos rest, if_neg (idle.mp rest)]
      by_cases doze : (s.port p).dozeRequested = true
      · rw [if_pos doze, if_pos doze, enterDozeWait, State.modPort_eq]
      · rw [if_neg doze, if_neg doze]
        cases hi : (s.port p).idle with
        | some t => simp
        | none =>
          by_cases zero : (s.port p).autoDoze = 0
          · have same : ({ s.port p with idle := none } : PortBlock) = s.port p := by rw [← hi]
            rw [Option.isNone_none, if_pos rfl, if_neg fun h => h.right zero, State.idleFrom, if_pos zero, State.modPort_eq, same]
          · rw [Option.isNone_none, if_pos rfl, if_pos ⟨rfl, zero⟩, State.idleFrom, if_neg zero, State.modPort_eq, BitVec.mul_comm]
    · rw [refreshIdle_of_busy (by simpa using rest), PortBlock.rested, if_pos up, if_pos up,
        if_pos (by_contra fun h => rest (idle.mpr h))]
  · rw [refreshIdle, PortBlock.rested, if_neg up, if_neg up, State.setPort_port]

/-- The looks at the ports' idleness change the ports alone. -/
theorem foldl_refreshIdle_frame (ps : List PortIdx) (s : State) :
    ∃ b, ps.foldl (fun s p => refreshIdle p s) s = { s with ports := b } := by
  induction ps generalizing s with
  | nil => exact ⟨s.ports, rfl⟩
  | cons p ps ih =>
    obtain ⟨b, one⟩ := refreshIdle_frame p s
    obtain ⟨c, more⟩ := ih (refreshIdle p s)
    exact ⟨c, more.trans (by rw [one]; rfl)⟩

section
variable (ps : List PortIdx) (s : State)

theorem generalQueue_foldl_refreshIdle : (ps.foldl (fun s p => refreshIdle p s) s).generalQueue = s.generalQueue := by
  obtain ⟨b, e⟩ := foldl_refreshIdle_frame ps s
  rw [e]

theorem line_foldl_refreshIdle (i : LineIdx) : (ps.foldl (fun s p => refreshIdle p s) s).line i = s.line i := by
  obtain ⟨b, e⟩ := foldl_refreshIdle_frame ps s
  rw [e]
  rfl

theorem arbLast_foldl_refreshIdle : (ps.foldl (fun s p => refreshIdle p s) s).arbLast = s.arbLast := by
  obtain ⟨b, e⟩ := foldl_refreshIdle_frame ps s
  rw [e]

theorem lastLine_foldl_refreshIdle : (ps.foldl (fun s p => refreshIdle p s) s).lastLine = s.lastLine := by
  obtain ⟨b, e⟩ := foldl_refreshIdle_frame ps s
  rw [e]

theorem logged_foldl_refreshIdle : Logged [] s (ps.foldl (fun s p => refreshIdle p s) s) := by
  obtain ⟨b, e⟩ := foldl_refreshIdle_frame ps s
  rw [e]
  exact logged_of_same rfl rfl

end

theorem port_foldl_refreshIdle {ps : List PortIdx} (hn : ps.Nodup) (free : ∀ i, (s.entry i).live = none) (q : PortIdx) :
    (ps.foldl (fun s p => refreshIdle p s) s).port q = if q ∈ ps then (s.port q).rested s.time else s.port q := by
  induction ps generalizing s with
  | nil => rfl
  | cons p ps ih =>
    obtain ⟨fresh, hn⟩ := List.nodup_cons.mp hn
    have same : BranchSide s (refreshIdle p s) := refreshIdle_branchSide p s
    have free' : ∀ i, ((refreshIdle p s).entry i).live = none := fun i => by rw [(unmoved_refreshIdle p s).entry, free]
    rw [List.foldl_cons, ih hn free', same.time, refreshIdle_free free, State.port_setPort]
    by_cases hq : p = q
    · subst hq
      rw [if_neg fresh, if_pos rfl, if_pos List.mem_cons_self]
    · simp [hq, Ne.symm hq]

end

/-- A port at trunk loss: without its READs it takes the requests that are released, and then its idleness is looked at. -/
theorem afterLoss_eq (b : PortBlock) (placed : List Queued) (now : Time) : b.afterLoss placed now =
    (({ b with queue := b.queue.filter fun q => !q.body.isRead } : PortBlock).withRequests placed now).rested now := by
  cases placed with
  | nil =>
    simp only [PortBlock.afterLoss, PortBlock.rested, PortBlock.withRequests, List.append_nil, List.foldl_nil]
    cases b.state <;> rfl
  | cons q l =>
    simp only [PortBlock.afterLoss, PortBlock.rested, withRequests_cons, PortBlock.withRequest]
    cases b.state <;> simp

/-! ### The state without READs -/

/-- The state in which the slots are granted: the trunk in DOWN, no frame and no entry live, the READs gone (R130). -/
def State.bereaved (s : State) : State :=
  dropReads (freeEntries (dropIngress { s with trunkState := .down, trunk := s.trunk.silence }))

section
variable (s : State)

theorem holdList_bereaved (w : WindowIdx) : s.bereaved.holdList w = (s.holdList w).filter fun h => !h.body.isRead :=
  holdList_dropReads ..

theorem port_bereaved (p : PortIdx) :
    s.bereaved.port p = { s.port p with queue := (s.port p).queue.filter fun q => !q.body.isRead } := port_dropReads ..

theorem entry_bereaved (i : EntryIdx) : s.bereaved.entry i = ⟨(s.entry i).epoch, none⟩ := by
  simp [State.entry, State.bereaved, dropReads, freeEntries, dropIngress]

theorem sentOf_bereaved (p : PortIdx) : s.bereaved.sentOf p = [] := by
  simp [State.sentOf, State.bereaved, dropReads, freeEntries]

theorem bereft_bereaved : Bereft s s.bereaved where
  down := rfl
  writes w h hh := by
    rw [holdList_bereaved, List.mem_filter] at hh
    simpa using hh.right
  windows _ := rfl
  time := rfl
  accepts p := by rw [port_bereaved]

/-- The grants at the loss of the trunk (R27, R30, R34). -/
theorem loss_loseRequests : ∃ left, Loss s (List.finRange 4) left s.bereaved (loseRequests s) :=
  loss_grantAll (bereft_bereaved s)

end

/-! ### The cause -/

/-- The cause is recorded last; the general queue is empty and the lines are renotified, line 32 with the arrival of the cause
(R130, R146, R157). -/
theorem recordLoss_eq {s : State} (h : s.trunkState = .down) (cause : FaultKind) (n : Nat) : recordLoss cause n s =
    { (takeFault ⟨cause, .trunk, none, none, none, some (.one (BitVec.ofNat 16 n)), s.time⟩
        { s with generalQueue := [], lines := mapVec EventLine.renotify s.lines }).setLine 32
        (s.line 32).renotify.arrive with
      trunk := { s.trunk with retry := some (s.time + Config.retryInterval) } } := by
  have line : ({ s with generalQueue := [], lines := mapVec EventLine.renotify s.lines } : State).line 32 =
      (s.line 32).renotify := by simp [State.line]
  have notUp : ({ s with generalQueue := [], lines := mapVec EventLine.renotify s.lines } : State).trunkState ≠ .up := by
    rw [h]; decide
  unfold recordLoss
  simp only
  rw [recordFault_notUp notUp, line, takeFault_eq]
  rfl

section
variable {s : State} (h : s.trunkState = .down) (cause : FaultKind) (n : Nat)
include h

theorem line_recordLoss (i : LineIdx) : (recordLoss cause n s).line i =
    if i = 32 then (s.line 32).renotify.arrive else (s.line i).renotify := by
  rw [recordLoss_eq h, takeFault_eq]
  show (State.setLine _ 32 _).line i = _
  rw [State.line_setLine]
  by_cases hi : i = 32
  · rw [if_pos hi, if_pos hi.symm]
  · rw [if_neg hi, if_neg (Ne.symm hi)]
    simp [State.line]

theorem generalQueue_recordLoss : (recordLoss cause n s).generalQueue = [] := by
  rw [recordLoss_eq h, takeFault_eq]
  rfl

theorem arbLast_recordLoss : (recordLoss cause n s).arbLast = s.arbLast := by
  rw [recordLoss_eq h, takeFault_eq]
  rfl

theorem lastLine_recordLoss : (recordLoss cause n s).lastLine = s.lastLine := by
  rw [recordLoss_eq h, takeFault_eq]
  rfl

theorem ports_recordLoss : (recordLoss cause n s).ports = s.ports := by
  rw [recordLoss_eq h, takeFault_eq]
  rfl

theorem entries_recordLoss : (recordLoss cause n s).entries = s.entries := by
  rw [recordLoss_eq h, takeFault_eq]
  rfl

end

theorem logged_recordLoss (cause : FaultKind) (n : Nat) (s : State) :
    Logged [⟨cause, .trunk, none, none, none, some (.one (BitVec.ofNat 16 n)), s.time⟩] s
    (recordLoss cause n s) := by
  have emptied : Logged [] s { s with generalQueue := [], lines := mapVec EventLine.renotify s.lines } :=
    logged_of_same rfl rfl
  have retried (u : State) (r : Option Time) : Logged [] u { u with trunk := { u.trunk with retry := r } } :=
    logged_of_same rfl rfl
  exact (emptied.trans (logged_recordFault cause .trunk none none none (some (.one (BitVec.ofNat 16 n))) _)).trans (retried ..)

theorem renotify_eq (l : EventLine) : l.renotify = { l with
    state := match l.state with
      | .idle => .idle
      | .pending => .pending
      | .notified => .pending
      | .again => .pending } := by
  unfold EventLine.renotify
  cases l.state <;> rfl

theorem state_arrive_renotify (l : EventLine) : l.renotify.arrive.state = .pending := by
  unfold EventLine.renotify EventLine.arrive
  cases l.state <;> rfl

/-! ### The whole happening -/

section
variable (cause : FaultKind) (s : State)

theorem down_loseRequests : (loseRequests s).trunkState = .down := (loseRequests_branchSide s).trunkState

theorem generalQueue_trunkLoss : (trunkLoss cause s).generalQueue = [] := by
  rw [trunkLoss, generalQueue_foldl_refreshIdle, generalQueue_recordLoss (down_loseRequests s)]

theorem line_trunkLoss (i : LineIdx) : (trunkLoss cause s).line i =
    if i = 32 then ((loseRequests s).line 32).renotify.arrive else ((loseRequests s).line i).renotify := by
  rw [trunkLoss, line_foldl_refreshIdle, line_recordLoss (down_loseRequests s)]

theorem arbLast_trunkLoss : (trunkLoss cause s).arbLast = (loseRequests s).arbLast := by
  rw [trunkLoss, arbLast_foldl_refreshIdle, arbLast_recordLoss (down_loseRequests s)]

theorem lastLine_trunkLoss : (trunkLoss cause s).lastLine = (loseRequests s).lastLine := by
  rw [trunkLoss, lastLine_foldl_refreshIdle, lastLine_recordLoss (down_loseRequests s)]

end

section
variable {s : State} {left : WindowIdx → List Held} (loss : Loss s (List.finRange 4) left s.bereaved (loseRequests s))
  (cause : FaultKind)
include loss

theorem entry_loseRequests (i : EntryIdx) : (loseRequests s).entry i = ⟨(s.entry i).epoch, none⟩ := by
  rw [← entry_bereaved s i, State.entry, loss.spared.entries]
  rfl

theorem bereft_trunkLoss : Bereft s (trunkLoss cause s) := by
  have granted := loss.bereft (bereft_bereaved s)
  have moved := unmoved_trunkLoss cause s
  have side := trunkLoss_branchSide cause s
  refine ⟨side.trunkState, fun w h hh => ?_, fun w => (moved.window w).trans (granted.windows w), side.time,
    fun p => (moved.ports p).accepts.trans (granted.accepts p)⟩
  rw [moved.holdList] at hh
  exact granted.writes w h hh

/-- Each port takes its requests and has its idleness looked at (R103, R113; log 33). -/
theorem port_trunkLoss (p : PortIdx) :
    (trunkLoss cause s).port p = (s.port p).afterLoss (s.lossPlaced left p) s.time := by
  have down := down_loseRequests s
  have ports (q : PortIdx) : (recordLoss cause s.liveCount (loseRequests s)).port q = (loseRequests s).port q := by
    rw [State.port, ports_recordLoss down, State.port]
  have lost : (loseRequests s).time = s.time := (loseRequests_branchSide s).time
  have time : (recordLoss cause s.liveCount (loseRequests s)).time = s.time := by rw [(recordLoss_branchSide ..).time, lost]
  have free : ∀ i, ((recordLoss cause s.liveCount (loseRequests s)).entry i).live = none := fun i => by
    rw [State.entry, entries_recordLoss down, ← State.entry, entry_loseRequests loss]
  rw [trunkLoss, port_foldl_refreshIdle (List.nodup_finRange 4) free, if_pos (List.mem_finRange p), ports, time, loss.ports,
    port_bereaved, ← afterLoss_eq]

/-- The failed releases and then the cause are taken by the log or counted (R160, R161; log 16). -/
theorem logged_trunkLoss : Logged ((List.finRange 4).flatMap (s.lossRecords left) ++
    [⟨cause, .trunk, none, none, none, some (.one (BitVec.ofNat 16 s.liveCount)), s.time⟩]) s (trunkLoss cause s) := by
  have freed : Logged [] s s.bereaved := logged_of_same rfl rfl
  have recorded := logged_recordLoss cause s.liveCount (loseRequests s)
  have looked := logged_foldl_refreshIdle (List.finRange 4) (recordLoss cause s.liveCount (loseRequests s))
  rw [← trunkLoss] at looked
  rw [(loseRequests_branchSide s).time] at recorded
  have all := (freed.trans loss.logged).trans (recorded.trans looked)
  rw [List.nil_append, List.append_nil] at all
  exact all

/-- A draining window whose head passes has no free slot (R34). -/
theorem egressFree_trunkLoss {w : WindowIdx} {h : Held} (hd : s.windowState w = .drain)
    (head : ((trunkLoss cause s).holdList w).head? = some h) (passes : s.releaseFailure w h = none) :
    (trunkLoss cause s).egressFree (s.window w).portIdx = false := by
  by_contra free
  obtain ⟨enabled, pass, _⟩ := windowState_eq_drain_iff.mp hd
  have claims := (bereft_trunkLoss loss cause).claims_iff.mpr ⟨enabled, pass, rfl, h, head, passes⟩
  rw [granted_trunkLoss cause s _ (by simpa using free) w] at claims
  cases claims

/-- A list whose window does not drain loses no WRITE. -/
theorem left_of_not_drain {w : WindowIdx} (hd : s.windowState w ≠ .drain) : left w = [] := by
  by_contra hne
  obtain ⟨enabled, pass, _⟩ := loss.own w hne
  refine hd (windowState_eq_drain_iff.mpr ⟨enabled, pass, fun empty => hne ?_⟩)
  have list := loss.lists w
  rw [holdList_bereaved, empty] at list
  exact (List.append_eq_nil_iff.mp list.symm).left

end

/-- With the trunk in DOWN and no frame waiting nothing follows trunk loss. -/
theorem settle_trunkLoss (cause : FaultKind) (s : State) : settle (trunkLoss cause s) = trunkLoss cause s := by
  have side := trunkLoss_branchSide cause s
  have down : (trunkLoss cause s).trunkState = .down := side.trunkState
  rw [settle_empty side.ingress, serveClaims_of_blocked (.inl (by rw [down]; decide))]

/-- The signal is lost in TRAINING or UP (R100). -/
theorem loseSignal_trunk {s : State} (signal : s.trunk.signal = true) (up : s.trunkState ≠ .down) :
    loseSignal .trunk s = trunkLoss .signalLost { s with trunk := { s.trunk with signal := false } } := by
  rw [← settle_trunkLoss]
  cases ht : s.trunkState with
  | down => exact absurd ht up
  | training | up => simp [loseSignal, signal, ht]

/-- The last SYNC stays unanswered (R91). -/
theorem resendReached_trunk {s : State} (training : s.trunkState = .training) (due : s.reached s.trunk.resend = true)
    (many : 32 ≤ s.trunk.syncsSent) : resendReached .trunk s = trunkLoss .trainingFail s := by
  have ready : (s.linkTraining .trunk && s.reached (s.linkEnd .trunk).resend) = true := by
    rw [Bool.and_eq_true]
    exact ⟨beq_iff_eq.mpr training, due⟩
  have enough : ¬(s.linkEnd .trunk).syncsSent < Config.maxSyncs := Nat.not_lt.mpr many
  rw [← settle_trunkLoss, resendReached, if_pos ready, if_neg enough]
  rfl

/-- Settles O32: the grants by `loss_loseRequests`, each port, the log and the lines after them, and the three commands. -/
theorem trunkLossFreesEverything : Obligations.TrunkLossFreesEverything := by
  unfold Obligations.TrunkLossFreesEverything
  intro s hpor gone writes translated lost
  have all : ∀ (k : FaultKind) (e : LinkEnd), lost k { s with trunk := e } (trunkLoss k { s with trunk := e }) := by
    intro k e
    generalize hg : ({ s with trunk := e } : State) = g
    obtain ⟨left, loss⟩ := loss_loseRequests g
    have side := trunkLoss_branchSide k g
    have moved := unmoved_trunkLoss k g
    have logged := logged_trunkLoss loss k
    have list : ∀ w, (trunkLoss k g).holdList w = (loseRequests g).holdList w := moved.holdList
    subst hg
    refine ⟨side.trunkState, side.trunk, side.ingress, side.decoder, moved.replyLane.trans loss.spared.replyLane,
      generalQueue_trunkLoss .., fun i => (moved.entry i).trans (entry_loseRequests loss i), fun p => ?sent, ⟨left, ?lists⟩,
      fun i hi => ?line, ?line32, side.windows, side.apertureBase, side.ticketLifetime, side.headWaitLimit, side.laneLast,
      (arbLast_trunkLoss ..).trans loss.spared.arbLast, (lastLine_trunkLoss ..).trans loss.spared.lastLine, side.time⟩
    case sent =>
      rw [moved.sentOf, State.sentOf, loss.spared.sentOrder]
      exact sentOf_bereaved _ p
    case lists =>
      intro onPort placed records room
      refine ⟨fun w => ?_, fun w => left_of_not_drain loss, loss.head, fun w h hne hh => loss.next w h hne (list w ▸ hh),
        fun w h => egressFree_trunkLoss loss k, fun x w h lt same hne hd hh => ?_, fun p hp => ?_, port_trunkLoss loss k,
        logged.log, logged.dropped⟩
      · rw [list, ← loss.lists w]
        exact (holdList_bereaved ..).symm
      · obtain ⟨enabled, pass, _⟩ := windowState_eq_drain_iff.mp hd
        exact loss.order x w h lt same hne enabled pass (list x ▸ hh)
      · obtain ⟨accepts, bound⟩ := loss.room p hp
        exact ⟨accepts, by rw [(moved.ports p).queue]; exact bound⟩
    case line =>
      rw [line_trunkLoss, if_neg hi, loss.spared.lines i hi]
      exact renotify_eq _
    case line32 =>
      rw [line_trunkLoss, if_pos rfl]
      exact state_arrive_renotify _
  refine ⟨fun signal up => ⟨_, ?_, all .signalLost { s.trunk with signal := false }⟩, fun signal down => ?_,
    fun training due many => ⟨_, ?_, all .trainingFail s.trunk⟩⟩
  · show Host.Outcome.next (whenPowered (loseSignal .trunk) s) = _
    rw [whenPowered_of_high hpor, loseSignal_trunk signal up]
  · show Host.Outcome.next (whenPowered (loseSignal .trunk) s) = _
    rw [whenPowered_of_high hpor]
    simp [loseSignal, signal, down, gone]
  · show Host.Outcome.next (whenPowered (resendReached .trunk) s) = _
    rw [whenPowered_of_high hpor, resendReached_trunk training due many]

end Sys2Proof.Machine
end

section
/-! The WRITEs of an event line's fields and of its command at a free decoder (R148, R151 to R153), the POP of the fault log, and the
fault that the log takes or drops (R146, R147, R160, R164). -/

namespace Sys2Proof.Machine

-- The theorems are checked one after the other, which bounds the memory that the check takes.
set_option Elab.async false

/-! ### The fields and the command of an event line -/

section
variable (i : LineIdx)

/-- The enable and the vector alone: the fields are replaced, and the claims that then stand are served (R148, R151). -/
theorem writeLine_fields (x v : Byte) (s : State) :
    validFields (.line i) 0 (x :: v :: pad 2) = decide (x.toNat ≤ 1) ∧ writeLine i 0 (x :: v :: pad 2) s =
      serveClaims (s.setLine i { s.line i with enable := x == 1, vector := v }) := by
  have enable : fieldOf 0 (x :: v :: pad 2) 0x00 1 = some x.toNat := congrArg some (beNat_singleton x)
  have vector : fieldOf 0 (x :: v :: pad 2) 0x01 1 = some v.toNat := congrArg some (beNat_singleton v)
  have command : fieldOf 0 (x :: v :: pad 2) 0x04 1 = none := fieldOf_beyond (Nat.lt_succ_self 4)
  constructor
  · simp only [validFields, enable, command, fieldIs, Bool.and_true]
  · simp only [writeLine, enable, vector, command, withField, decide_toNat_eq_one, State.line_setLine_self,
      State.setLine_setLine, byte, BitVec.ofNat_toNat, BitVec.setWidth_eq, serveClaims_serveClaims]

/-- The command alone, carried out once the claims that stand before it are served (R151 to R153, log 36). -/
theorem writeLine_command (c : Byte) (s : State) :
    validFields (.line i) 4 (commandGroup c) = decide (c.toNat ≤ 2) ∧ writeLine i 4 (commandGroup c) s =
      serveClaims ((serveClaims s).setLine i (((serveClaims s).line i).command c.toNat)) := by
  have before : ∀ field size, field < 4 → fieldOf 4 (commandGroup c) field size = none := fun _ _ h => fieldOf_before h
  have command : fieldOf 4 (commandGroup c) 0x04 1 = some c.toNat := fieldOf_head 4 c _
  constructor
  · simp (disch := decide) only [validFields, before, command, fieldIs, Bool.true_and]
  · simp (disch := decide) only [writeLine, before, command, withField]

/-- The record of an event line lies in the management aperture, up to its command (R170). -/
theorem line_offset_lt : (RecordId.line i).offset + 4 < 0x10000 := by
  have := i.isLt
  simp only [RecordId.offset]
  omega

section
variable {s : State} (h : s.hostReady)
include h

/-- Enable and vector of an event line at a free decoder: a valid enable is written with the vector at the arrival, and any
other is discarded with MGMT_FORM (R151, R172, R173). -/
theorem hostWrite_lineFields (x v : Byte) :
    (x.toNat ≤ 1 → hostWrite (RecordId.line i).offset (x :: v :: pad 2) s =
      serveClaims (s.writeTaken.setLine i { s.line i with enable := x == 1, vector := v })) ∧
    (1 < x.toNat → hostWrite (RecordId.line i).offset (x :: v :: pad 2) s =
      recordFault .mgmtForm .management none none
        (some (s.apertureBase + BitVec.ofNat 40 (RecordId.line i).offset)) none s.writeTaken) := by
  have low : (RecordId.line i).offset < 0x10000 := Nat.lt_of_add_right_lt (line_offset_lt i)
  have form : writeForm (RecordId.line i).offset (x :: v :: pad 2).length = some (.line i, 0) :=
    writeForm_lineGroups i (k := 0) (len := 4) (by decide) rfl rfl (by decide)
  obtain ⟨valid, effect⟩ := writeLine_fields i x v s.writeTaken
  refine ⟨fun good => ?_, fun bad => ?_⟩
  · rw [hostWrite_applied h low (by simp) (by simp [pad]) form (valid.trans (decide_eq_true good))]
    simp only [applyRecord, effect, serveClaims_serveClaims]
    rfl
  · have noWindow : windowAt (RecordId.line i).offset = none := if_neg (by simp only [RecordId.offset]; omega)
    rw [hostWrite_invalid h low (by simp) (by simp [pad]) form (valid.trans (decide_eq_false (by omega))), noWindow]

/-- A command of an event line at a free decoder is carried out at its arrival; no claim stands before it (R148, R152, R153). -/
theorem hostWrite_lineCommand (c : Byte) (hc : c.toNat ≤ 2) :
    hostWrite ((RecordId.line i).offset + 0x04) (commandGroup c) s =
      serveClaims (s.writeTaken.setLine i ((s.line i).command c.toNat)) := by
  have form : writeForm ((RecordId.line i).offset + 4) (commandGroup c).length = some (.line i, 4) :=
    writeForm_lineGroups i (len := 4) (by decide) rfl rfl (by decide)
  obtain ⟨valid, effect⟩ := writeLine_command i c s.writeTaken
  rw [hostWrite_applied h (line_offset_lt i) (by simp) (by simp) form (valid.trans (decide_eq_true hc))]
  simp only [applyRecord, effect, serveClaims_writeTaken h, serveClaims_serveClaims]
  rfl

/-- A WRITE that leaves its line without a claim leaves no claimant waiting (R148). -/
theorem serveClaims_setLine_writeTaken {l : EventLine} (hl : l.eligible = false) :
    serveClaims (s.writeTaken.setLine i l) = s.writeTaken.setLine i l := by
  have admitted : s.writeTaken.admitted := serveClaims_writeTaken h ▸ admitted_serveClaims rfl
  exact serveClaims_of_admitted (admitted_setLine admitted i hl)

end
end

/-- Settles O48: the fields by their range, and each command by the state of its line. -/
theorem eventLineWrites : Obligations.EventLineWrites := by
  unfold Obligations.EventLineWrites
  intro s i h l
  have idled : ∀ m : EventLine, m.state = .idle → serveClaims (s.writeTaken.setLine i m) = s.writeTaken.setLine i m :=
    fun m hm => serveClaims_setLine_writeTaken i h (by simp [EventLine.eligible, hm])
  have left : serveClaims (s.writeTaken.setLine i l) = s.writeTaken :=
    (congrArg serveClaims (s.writeTaken.setLine_line i)).trans (serveClaims_writeTaken h)
  have ack : ∀ {m : EventLine} {t : State}, l.command 1 = m → serveClaims (s.writeTaken.setLine i m) = t →
      exec (.ack i) s = .next t := by
    rintro m t rfl rfl
    exact congrArg Host.Outcome.next (hostWrite_lineCommand i h 1 (by decide))
  refine ⟨fun x v good => ?_, fun x v bad => ?_, fun notified => ?_, fun again => ?_, fun ignored => ?_, ?_⟩
  · obtain ⟨written, _⟩ := hostWrite_lineFields i h x v
    exact congrArg Host.Outcome.next (written good)
  · obtain ⟨_, refused⟩ := hostWrite_lineFields i h x v
    exact congrArg Host.Outcome.next (refused bad)
  · exact ack (l.command_ack_notified notified) (idled _ rfl)
  · exact ack (l.command_ack_again again) rfl
  · exact ack (l.command_ack_ignored ignored) left
  · exact congrArg Host.Outcome.next ((hostWrite_lineCommand i h 2 (by decide)).trans (idled _ rfl))

/-! ### The fault log -/

section
variable {r : FaultRecord} {s : State}

/-- A log with room adds the fault at its tail (R160). -/
theorem takeFault_of_room (room : s.faultLog.length < 16) : takeFault r s = { s with faultLog := s.faultLog ++ [r] } :=
  if_pos room

/-- A full log drops the fault and counts it (R160). -/
theorem takeFault_of_full (full : 16 ≤ s.faultLog.length) (count : s.dropped.toNat < 65535) :
    takeFault r s = { s with dropped := s.dropped + 1 } := by
  have more : s.dropped ≠ 0xFFFF := fun last => by simp [last] at count
  rw [takeFault_eq, if_neg (by omega), if_neg (by omega), if_neg more]

/-- A full log whose dropped count stands at 65,535 is left as it is (R160). -/
theorem takeFault_of_saturated (full : 16 ≤ s.faultLog.length) (count : s.dropped.toNat = 65535) : takeFault r s = s := by
  have last : s.dropped = 0xFFFF := BitVec.eq_of_toNat_eq count
  rw [takeFault_eq, if_neg (by omega), if_neg (by omega), if_pos last]

end

/-- A POP at a free decoder removes the head record, whatever the log holds (R164). -/
theorem exec_pop {s : State} (h : s.hostReady) : exec .pop s = .next { s.writeTaken with faultLog := s.faultLog.tail } := by
  have command : fieldOf 8 (beBytes 4 1) 0x08 4 = some 1 := fieldOf_whole 8 (by decide)
  have count : fieldOf 8 (beBytes 4 1) 0x04 4 = none := fieldOf_other (.inl (by decide))
  have effect : writeLogControl 8 (beBytes 4 1) s.writeTaken = { s.writeTaken with faultLog := s.faultLog.tail } := by
    simp only [writeLogControl, count, command, withField, if_true]
    rfl
  exact congrArg Host.Outcome.next (hostWrite_quiet h (r := .logControl) (k := 8) (by decide) (by simp) (by simp)
    (by rw [length_beBytes]; decide) (by simp only [validFields, command, fieldIs, decide_true, Nat.le_refl]) effect
    (serveClaims_afterTaking h rfl rfl rfl rfl rfl fun _ => rfl))

/-- Settles O49: the POP by the log that it finds, and a fault by the room of the log and the dropped count. -/
theorem popRemovesTheHeadRecord : Obligations.PopRemovesTheHeadRecord := by
  unfold Obligations.PopRemovesTheHeadRecord
  refine ⟨fun s h => ⟨exec_pop h, fun r rest log => ?_, fun empty => ?_⟩, ?_⟩
  · have tail : s.faultLog.tail = rest := by rw [log, List.tail_cons]
    refine ⟨{ s.writeTaken with faultLog := rest }, tail ▸ exec_pop h, rfl, by rw [log, List.length_cons], rfl, rfl,
      fun bound x => ?_⟩
    have room : rest.length < 16 := by
      rw [log, List.length_cons] at bound
      omega
    rw [takeFault_of_room room]
    exact ⟨rfl, rfl⟩
  · have same : s.faultLog.tail = s.writeTaken.faultLog := by rw [empty]; exact empty.symm
    rw [exec_pop h, same]
  · intro s k src w t a c raised
    have taken : ∀ {u : State}, u.lines = s.lines → takeFault ⟨k, src, w, t, a, c, s.time⟩ s = u →
        recordFault k src w t a c s = raised u := by
      intro u lines hu
      have line : u.line 32 = s.line 32 := by rw [State.line, lines]; rfl
      rw [recordFault, hu, arrival, line, EventLine.arrive]
      simp only [raised]
      cases (s.line 32).state <;> rfl
    exact ⟨fun room => taken rfl (takeFault_of_room room), fun full count => taken rfl (takeFault_of_full full count),
      fun full count => taken rfl (takeFault_of_saturated full count)⟩

end Sys2Proof.Machine
end

section
/-! POR_N (O5, O6), and the management rows as WRITE frames (O41). -/

namespace Sys2Proof.Machine

/-! ### POR_N low -/

/-- A router with POR_N low drives no symbols on any lane (R184, R190). -/
theorem drives_of_low {s : State} (low : s.porN = false) (l : Link) : s.drives l = .undriven := by
  simp [State.drives, low]

/-- No lane of the blank state has a frame in transmission. -/
theorem transmitting_blank (porN : Bool) (strap : BitVec 2) (q : List Instr) (l : Link) :
    ((State.blank porN strap q).linkEnd l).transmitting = none := by
  cases l with
  | trunk => rfl
  | branch p => rw [State.linkEnd_branch, port_blank]; rfl

/-- Settles O5: `powerDown` is the blank state with the strap ID, and each vector of it is read at its index. -/
theorem porAssertLosesEverything : Obligations.PorAssertLosesEverything := by
  unfold Obligations.PorAssertLosesEverything
  intro s
  refine ⟨powerDown s, rfl, rfl, rfl, rfl, rfl, rfl, rfl, rfl, rfl, fun w => ⟨holdList_blank _ _ _ w, ?_⟩, fun i => ?_,
    fun i => ?_, fun l => ⟨transmitting_blank _ _ _ l, drives_of_low rfl l⟩, rfl, fun p => ?_, rfl⟩
  · rw [powerDown, window_blank]; rfl
  · rw [powerDown, entry_blank]
  · rw [powerDown, line_blank]; rfl
  · rw [powerDown, port_blank]; exact ⟨rfl, rfl, rfl⟩

section
variable {s : State} (low : s.porN = false)
include low

/-- While POR_N is low, a deadline, a signal report, a transmission and a tick do nothing (R176, R184). -/
theorem whenPowered_of_low (f : State → State) : whenPowered f s = s := if_neg (by simp [low])

/-- While POR_N is low, no link receives (R184). -/
theorem rxPhase_of_low (l : Link) : s.rxPhase l = .deaf := by simp [State.rxPhase, low]

/-- While POR_N is low, a frame that arrives changes nothing, whatever the phases would do with it (R184). -/
theorem receive_of_low {l : Link} {size : Nat} {training live doze waking : State → State} :
    receive l size training live doze waking s = s := receive_deaf (rxPhase_of_low low l)

/-- While POR_N is low, no frame arrives on the trunk, a management WRITE neither. -/
theorem receiveRequest_of_low (r : TrunkRequest) : receiveRequest r s = s := receive_of_low low

end

/-- Settles O6: a command other than the two of POR_N acts on POR_N high alone, or is a frame, which no link receives. -/
theorem lowPorIgnoresEveryOtherCommand : Obligations.LowPorIgnoresEveryOtherCommand := by
  unfold Obligations.LowPorIgnoresEveryOtherCommand
  intro c s low notAssert notRelease
  cases c with
  | porAssert => exact absurd rfl notAssert
  | porRelease id1 id0 => exact absurd rfl (notRelease id1 id0)
  | crcError l => exact congrArg Host.Outcome.next (crcFail_deaf (rxPhase_of_low low l))
  | trunkReset | syncReceived | syncAckReceived | creditReceived | moduleWriteArrival | branchResultArrival | eventFrame
  | dozeAck | moduleWake | disallowedKindFrame => exact congrArg Host.Outcome.next (receive_of_low low)
  | signalLost | signalPresent | resendDeadline | retryDeadline | ticketDeadline | headWaitDeadline | answerDeadline
  | wakeDeadline | idleDeadline | syncTransmit | syncAckTransmit | creditTransmit | dozeReqTransmit | wakeTransmit
  | branchEgressTransmit | replyLaneTransmit | generalQueueTransmit | transmitterFree | routerTimeTick =>
    exact congrArg Host.Outcome.next (whenPowered_of_low low _)
  | trunkIngressFrame | windowRecordWrite | apertureBaseWrite | ticketLifetimeWrite | headWaitLimitWrite | routerReset
  | portEnable | autoDozeIntervalWrite | dozeCommand | wakeCommand | portResetCommand | eventLineEnableWrite | ack | clear
  | pop | droppedCountClear | counterClear | managementWrite =>
    exact congrArg Host.Outcome.next (receiveRequest_of_low low _)

/-! ### The management rows -/

/-- The byte of place `k` of a word, counted from the least significant one (R188). -/
theorem ofNat_toNat_div {w : Nat} (v : BitVec w) (k : Nat) :
    BitVec.ofNat 8 (v.toNat / 256 ^ k) = v.extractLsb' (8 * k) 8 := by
  have place : 256 ^ k = 2 ^ (8 * k) := (pow_mul 2 8 k).symm
  apply BitVec.eq_of_toNat_eq
  rw [BitVec.toNat_ofNat, BitVec.extractLsb'_toNat, Nat.shiftRight_eq_div_pow, place]

/-- The two bytes of a 16-bit field (R188). -/
theorem beBytes_two (k : BitVec 16) : beBytes 2 k.toNat = [k.extractLsb' 8 8, k.extractLsb' 0 8] := by
  simp only [beBytes, ofNat_toNat_div]

/-- The four bytes of a 32-bit field (R188). -/
theorem beBytes_four (v : BitVec 32) :
    beBytes 4 v.toNat = [v.extractLsb' 24 8, v.extractLsb' 16 8, v.extractLsb' 8 8, v.extractLsb' 0 8] := by
  simp only [beBytes, ofNat_toNat_div]

/-- A slice of a slice that lies inside it is a slice of the whole. -/
theorem extractLsb'_extractLsb' {w : Nat} (v : BitVec w) (base : Nat) {start len width : Nat} (inside : start + len ≤ width) :
    (v.extractLsb' base width).extractLsb' start len = v.extractLsb' (base + start) len := by
  ext i hi
  have below : start + i < width := by omega
  simp [below, Nat.add_assoc]

/-- The eight bytes of a 64-bit field are those of its two halves, the upper one first (R188). -/
theorem beBytes_eight (b : BitVec 64) :
    beBytes 8 b.toNat = beBytes 4 (b.extractLsb' 32 32).toNat ++ beBytes 4 (b.extractLsb' 0 32).toNat := by
  simp (disch := decide) only [beBytes, ofNat_toNat_div, extractLsb'_extractLsb', List.cons_append, List.nil_append]

/-- A row that writes `bytes` at offset `n` is the MANAGEMENT_WRITE of them there (log 14). -/
theorem exec_managementWrite {c : Instr} {s : State} {n : Nat} {off : BitVec 16} {bytes data : List Byte}
    (row : exec c s = .next (hostWrite n bytes s)) (offset : off.toNat = n) (same : bytes = data) :
    exec c s = exec (.managementWrite off data) s := by
  rw [row, ← offset, same]
  rfl

/-- The offset of a record of an array, as a number of 16 bits (R170). -/
theorem toNat_arrayOffset {base stride i : Nat} (fits : base + stride * i < 0x10000) :
    (BitVec.ofNat 16 base + BitVec.ofNat 16 stride * BitVec.ofNat 16 i).toNat = base + stride * i := by
  rw [← BitVec.ofNat_mul, ← BitVec.ofNat_add, BitVec.toNat_ofNat, Nat.mod_eq_of_lt fits]

/-- The offset of a group inside a record, as a number of 16 bits (R170). -/
theorem toNat_groupOffset {off : BitVec 16} {n k : Nat} (record : off.toNat = n) (fits : n + k < 0x10000) :
    (off + BitVec.ofNat 16 k).toNat = n + k := by
  rw [BitVec.toNat_add, BitVec.toNat_ofNat, Nat.add_mod_mod, record, Nat.mod_eq_of_lt fits]

/-- The first control group of a port record, its interval in two bytes (R189). -/
theorem controlGroup_eq (x y : Byte) (k : BitVec 16) : controlGroup x y k = [x, y, k.extractLsb' 8 8, k.extractLsb' 0 8] := by
  rw [controlGroup, beBytes_two]

/-- Settles O41: each row is the WRITE of its bytes at its offset, and these are the bytes and the offset of the table. -/
theorem managementRowsAreWriteFrames : Obligations.ManagementRowsAreWriteFrames := by
  unfold Obligations.ManagementRowsAreWriteFrames
  intro s p w i x y k v at' bytes4
  have word : ∀ u, beBytes 4 u.toNat = bytes4 u := beBytes_four
  have double : ∀ b : BitVec 64, beBytes 8 b.toNat = bytes4 (b.extractLsb' 32 32) ++ bytes4 (b.extractLsb' 0 32) :=
    fun b => by rw [beBytes_eight, word, word]
  have windowStart : (0x2000 + 0x20 * BitVec.ofNat 16 w.val).toNat = (RecordId.window w).offset :=
    toNat_arrayOffset (base := 0x2000) (stride := 0x20) (by omega)
  have portStart : (0x1000 + 0x100 * BitVec.ofNat 16 p.val).toNat = (RecordId.port p).offset :=
    toNat_arrayOffset (base := 0x1000) (stride := 0x100) (by omega)
  have lineStart : (0x4000 + 8 * BitVec.ofNat 16 i.val).toNat = (RecordId.line i).offset :=
    toNat_arrayOffset (base := 0x4000) (stride := 8) (by omega)
  have control : ∀ c, exec c s = .next (hostWrite (RecordId.port p).offset (controlGroup x y k) s) →
      exec c s = at' (0x1000 + 0x100 * BitVec.ofNat 16 p.val) [x, y, k.extractLsb' 8 8, k.extractLsb' 0 8] :=
    fun c row => exec_managementWrite row portStart (controlGroup_eq x y k)
  have portCommand : ∀ c code, exec c s = .next (hostWrite ((RecordId.port p).offset + 8) (commandGroup code) s) →
      exec c s = at' (0x1000 + 0x100 * BitVec.ofNat 16 p.val + 8) [code, 0, 0, 0] :=
    fun c code row => exec_managementWrite row (toNat_groupOffset portStart (by simp only [RecordId.offset]; omega)) rfl
  have lineCommand : ∀ c code, exec c s = .next (hostWrite ((RecordId.line i).offset + 4) (commandGroup code) s) →
      exec c s = at' (0x4000 + 8 * BitVec.ofNat 16 i.val + 4) [code, 0, 0, 0] :=
    fun c code row => exec_managementWrite row (toNat_groupOffset lineStart (by simp only [RecordId.offset]; omega)) rfl
  have counters : ∀ (l : Link) (first n : Nat), exec (.counterClear l first n v) s = exec (.trunkIngressFrame
      (hostWriteFrame (s.apertureBase + BitVec.ofNat 40 (counterOffset l + 4 * first))
        (List.replicate n (bytes4 v)).flatten)) s :=
    fun l first n => by rw [← word]; rfl
  refine ⟨fun off data => rfl, fun b => ?_, fun b => ?_, ?_, ?_, ?_,
    ⟨control _ rfl, control _ rfl, portCommand _ 1 rfl, portCommand _ 2 rfl, portCommand _ 3 rfl⟩,
    fun first n => ⟨counters (.branch p) first n, counters .trunk first n⟩,
    ⟨?_, lineCommand _ 1 rfl, lineCommand _ 2 rfl⟩, ?_, ?_⟩
  · exact exec_managementWrite rfl windowStart rfl
  · exact exec_managementWrite rfl rfl (double b)
  · exact exec_managementWrite rfl rfl (word v)
  · exact exec_managementWrite rfl rfl (word v)
  · exact exec_managementWrite rfl rfl rfl
  · exact exec_managementWrite rfl lineStart rfl
  · exact exec_managementWrite rfl rfl rfl
  · exact exec_managementWrite rfl rfl (word v)

end Sys2Proof.Machine
end

section
/-! The queue of commands (O1, O2): a step takes its front command, and every command answers a next state that holds the queue as
it was (00_scope.md section 5, log 2, log 3, log 26). -/

namespace Sys2Proof.Machine

-- The theorems are checked one after the other, which bounds the memory that the check takes.
set_option Elab.async false

section
variable (s : State)

/-! ### The operations that the meanings share -/

@[simp] theorem consume_pending (l : Link) (c : CreditClass) : (s.consume l c).pending = s.pending := by
  simp [State.consume]

@[simp] theorem toReplying_pending (i : EntryIdx) (st : Status) (data : List Byte) :
    (toReplying i st data s).pending = s.pending := (toReplying_branchSide i st data s).pending

@[simp] theorem refreshIdle_pending (p : PortIdx) : (refreshIdle p s).pending = s.pending :=
  (refreshIdle_branchSide p s).pending

@[simp] theorem examineHeads_pending (w : WindowIdx) : (examineHeads w s).pending = s.pending :=
  (examineHeads_branchSide w s).pending

@[simp] theorem grantWindows_pending (p : PortIdx) : (grantWindows p s).pending = s.pending :=
  (grantWindows_branchSide p s).pending

@[simp] theorem enterDozeWait_pending (p : PortIdx) : (enterDozeWait p s).pending = s.pending := rfl

@[simp] theorem enterWaking_pending (started : Bool) (p : PortIdx) : (enterWaking started p s).pending = s.pending := rfl

@[simp] theorem decodeRun_pending (fresh : Bool) : (decodeRun fresh s).pending = s.pending :=
  (decodeLoop_takeSide _ fresh s).pending

@[simp] theorem settle_pending : (settle s).pending = s.pending := (settle_takeSide s).pending

@[simp] theorem popHead_pending (f : HostFrame) : (popHead f s).pending = s.pending := by simp [popHead]

@[simp] theorem expire_pending (i : EntryIdx) (v : Live) : (expire i v s).pending = s.pending := by simp [expire]

@[simp] theorem sendSync_pending (l : Link) : (sendSync l s).pending = s.pending := by simp [sendSync]

@[simp] theorem dueSync_pending (l : Link) : (dueSync l s).pending = s.pending := (dueSync_takeSide l s).pending

@[simp] theorem setTraining_pending (l : Link) : (setTraining l s).pending = s.pending := by cases l <;> rfl

@[simp] theorem startTraining_pending (l : Link) : (startTraining l s).pending = s.pending := by simp [startTraining]

@[simp] theorem portFail_pending (k : FaultKind) (p : PortIdx) : (portFail k p s).pending = s.pending := by
  simp [portFail, (portDown_branchSide .down (some k) p s).pending]

@[simp] theorem trunkLoss_pending (k : FaultKind) : (trunkLoss k s).pending = s.pending := (trunkLoss_branchSide k s).pending

/-! ### Frames that a link discards or takes for link control -/

@[simp] theorem discardFrame_pending (l : Link) : (discardFrame l s).pending = s.pending := by simp [discardFrame]

@[simp] theorem frameInvalid_pending (l : Link) (kind : Byte) (c : Option CreditClass) :
    (frameInvalid l kind c s).pending = s.pending := by
  unfold frameInvalid
  cases c <;> simp

@[simp] theorem creditOverrun_pending (l : Link) (c : CreditClass) (t : Option (BitVec 6)) (a : HostAddr) :
    (creditOverrun l c t a s).pending = s.pending := by simp [creditOverrun]

@[simp] theorem crcFail_pending (l : Link) : (crcFail l s).pending = s.pending := by
  unfold crcFail
  cases s.rxPhase l <;> simp

/-- A link enters UP with what `f` does to its end, and what follows (R88, R89). -/
theorem toUp_pending (l : Link) (f : LinkEnd → LinkEnd) : (afterUp l ((setUp l s).modLink l f)).pending = s.pending := by
  cases l with
  | trunk => exact settle_pending _
  | branch p => exact refreshIdle_pending _ p

@[simp] theorem syncToUp_pending (l : Link) (a b : Byte) : (syncToUp l a b s).pending = s.pending := toUp_pending s l _

@[simp] theorem syncAckToUp_pending (l : Link) (a b : Byte) : (syncAckToUp l a b s).pending = s.pending := toUp_pending s l _

@[simp] theorem syncWhenLive_pending (l : Link) (a b : Byte) : (syncWhenLive l a b s).pending = s.pending := by
  cases l with
  | trunk => rfl
  | branch p =>
    simp only [syncWhenLive]
    split
    · simp
    · exact syncToUp_pending s (.branch p) a b

theorem trunkReset_pending : (trunkReset s).pending = s.pending := startTraining_pending _ .trunk

/-! ### Frames of the host and of the modules -/

@[simp] theorem enqueueTrunk_pending (f : HostFrame) : (enqueueTrunk f s).pending = s.pending := by
  unfold enqueueTrunk
  simp only
  split
  · exact decodeRun_pending _ true
  · rfl

@[simp] theorem acceptRequest_pending (r : TrunkRequest) : (acceptRequest r s).pending = s.pending := by
  unfold acceptRequest
  split
  · split <;> simp
  · simp

@[simp] theorem refuseUpWrite_pending (k : FaultKind) (p : PortIdx) (n : Nat) (a : ModuleAddr) :
    (refuseUpWrite k p n a s).pending = s.pending := by simp [refuseUpWrite]

@[simp] theorem bufferWrite_pending (p : PortIdx) (w : UpWrite) : (bufferWrite p w s).pending = s.pending := by
  simp [bufferWrite]

@[simp] theorem acceptUpWrite_pending (p : PortIdx) (n : Nat) (a : ModuleAddr) (data : List Byte) :
    (acceptUpWrite p n a data s).pending = s.pending := by
  unfold acceptUpWrite
  simp only
  split
  · simp
  · split
    · simp
    · split <;> simp

@[simp] theorem matchedResult_pending (i : EntryIdx) (v : Live) (st : BitVec 3) (n : Byte) (data : List Byte) :
    (matchedResult i v st n data s).pending = s.pending := by
  unfold matchedResult
  split
  · split <;> simp
  · simp

@[simp] theorem acceptResult_pending (p : PortIdx) (size : Nat) (st : BitVec 3) (ticket n : Byte) (data : List Byte) :
    (acceptResult p size st ticket n data s).pending = s.pending := by
  unfold acceptResult
  split
  · simp only
    split
    · simp
    · simp [staleResult]
  · simp

@[simp] theorem acceptDozeAck_pending (p : PortIdx) : (acceptDozeAck p s).pending = s.pending := by
  unfold acceptDozeAck
  simp only
  split
  · simp
  · split <;> simp

/-! ### Deadlines -/

@[simp] theorem trainingFail_pending (l : Link) : (trainingFail l s).pending = s.pending := by
  cases l <;> simp [trainingFail]

@[simp] theorem resendReached_pending (l : Link) : (resendReached l s).pending = s.pending := by
  unfold resendReached
  simp only
  split
  · split <;> simp
  · rfl

@[simp] theorem retryReached_pending (l : Link) : (retryReached l s).pending = s.pending := by
  unfold retryReached
  split
  · cases l <;> simp
  · rfl

@[simp] theorem ticketReached_pending (i : EntryIdx) : (ticketReached i s).pending = s.pending := by
  unfold ticketReached
  split
  · rfl
  · split
    · split
      · split <;> simp [removeHeld]
      · simp [removeQueued]
      · simp
      · rfl
    · rfl

@[simp] theorem headWaitReached_pending : (headWaitReached s).pending = s.pending := by
  unfold headWaitReached
  split
  · rfl
  · split <;> simp

@[simp] theorem answerReached_pending (p : PortIdx) : (answerReached p s).pending = s.pending := by
  unfold answerReached
  simp only
  split <;> simp

@[simp] theorem wakeReached_pending (p : PortIdx) : (wakeReached p s).pending = s.pending := by
  unfold wakeReached
  simp only
  split <;> simp

@[simp] theorem idleReached_pending (p : PortIdx) : (idleReached p s).pending = s.pending := by
  unfold idleReached
  simp only
  split <;> simp

/-! ### Signals and the tick -/

@[simp] theorem loseSignal_pending (l : Link) : (loseSignal l s).pending = s.pending := by
  unfold loseSignal
  split
  · cases l with
    | trunk => cases h : s.trunkState <;> simp [h]
    | branch p =>
      simp only
      split <;> simp
  · rfl

/-- The tick moves router time, or ends failing heads on the branch side besides (R176, log 16). -/
@[simp] theorem tick_pending : (tick s).pending = s.pending := by
  unfold tick
  simp only
  split
  · rw [settle_pending, (grantAll_branchSide _).pending, (examineAll_branchSide _).pending]
  · rfl

/-! ### Transmissions -/

@[simp] theorem markSent_pending (p : PortIdx) (b : ReqBody) : (markSent p b s).pending = s.pending := by
  unfold markSent
  split
  · rfl
  · split
    · split <;> rfl
    · rfl

@[simp] theorem sendEgress_pending (p : PortIdx) (q : Queued) : (sendEgress p q s).pending = s.pending := by
  simp [sendEgress]

@[simp] theorem sendReply_pending : (sendReply s).pending = s.pending := by
  unfold sendReply
  split <;> simp

@[simp] theorem sendGeneral_pending : (sendGeneral s).pending = s.pending := by
  unfold sendGeneral
  split <;> simp

end

/-! ### What keeps the queue of commands -/

/-- Whatever the state, `f` leaves the queue of commands as it is. -/
def KeepsQueue (f : State → State) : Prop := ∀ s, (f s).pending = s.pending

section
variable {f g : State → State}

/-- A frame that a link takes without an effect of its own. -/
theorem keepsQueue_id : KeepsQueue id := fun _ => rfl

/-- One of two effects, by the form of the frame. -/
theorem KeepsQueue.ite {c : Prop} [Decidable c] (hf : KeepsQueue f) (hg : KeepsQueue g) :
    KeepsQueue (if c then f else g) := by
  split
  · exact hf
  · exact hg

/-- An effect that comes about under a condition on the state (log 3). -/
theorem KeepsQueue.ifReady (hf : KeepsQueue f) (ready : State → Bool) : KeepsQueue fun s => if ready s then f s else s := by
  intro s
  cases h : ready s
  · simp [h]
  · simp [h, hf s]

theorem KeepsQueue.whenPowered (hf : KeepsQueue f) : KeepsQueue (whenPowered f) := hf.ifReady State.porN

/-- A write of a link end concerns no command. -/
theorem keepsQueue_modLink (l : Link) (e : State → LinkEnd → LinkEnd) : KeepsQueue fun s => s.modLink l (e s) :=
  fun s => s.setLink_pending l (e s (s.linkEnd l))

/-- A frame that arrives keeps the queue where each phase of its link does so (R97, R119, R120, R186). -/
theorem keepsQueue_receive {training live doze waking : State → State} {l : Link} (size : Nat) (ht : KeepsQueue training)
    (hl : KeepsQueue live) (hd : KeepsQueue doze) (hw : KeepsQueue waking) :
    KeepsQueue (receive l size training live doze waking) := by
  intro s
  have counted : (s.modLink l LinkEnd.countIn).pending = s.pending := by simp
  unfold receive
  split
  · cases s.rxPhase l with
    | deaf => rfl
    | training => exact (ht _).trans counted
    | live => exact (hl _).trans counted
    | doze => exact (hd _).trans counted
    | waking => exact (hw _).trans counted
  · exact crcFail_pending s l

end

theorem keepsQueue_discardFrame (l : Link) : KeepsQueue (discardFrame l) := (discardFrame_pending · l)

theorem keepsQueue_frameInvalid (l : Link) (kind : Byte) (c : Option CreditClass) : KeepsQueue (frameInvalid l kind c) :=
  (frameInvalid_pending · l kind c)

theorem keepsQueue_receiveSync (l : Link) (size : Nat) (a b : Byte) : KeepsQueue (receiveSync l size a b) :=
  have toUp : KeepsQueue (syncToUp l a b) := (syncToUp_pending · l a b)
  have whenLive : KeepsQueue (syncWhenLive l a b) := (syncWhenLive_pending · l a b)
  keepsQueue_receive size (toUp.ite (keepsQueue_discardFrame l)) (whenLive.ite (keepsQueue_frameInvalid _ _ _))
    (toUp.ite (keepsQueue_frameInvalid _ _ _)) (toUp.ite (keepsQueue_discardFrame l))

theorem keepsQueue_receiveSyncAck (l : Link) (size : Nat) (a b : Byte) : KeepsQueue (receiveSyncAck l size a b) :=
  have toUp : KeepsQueue (syncAckToUp l a b) := (syncAckToUp_pending · l a b)
  keepsQueue_receive size (toUp.ite (keepsQueue_discardFrame l)) (keepsQueue_id.ite (keepsQueue_frameInvalid _ _ _))
    (keepsQueue_frameInvalid _ _ _) (keepsQueue_discardFrame l)

theorem keepsQueue_receiveCredit (l : Link) (size : Nat) (a b : Byte) : KeepsQueue (receiveCredit l size a b) := by
  refine keepsQueue_receive size (keepsQueue_discardFrame l) (fun s => ?_) (keepsQueue_frameInvalid _ _ _)
    (keepsQueue_discardFrame l)
  split
  · exact s.setLink_pending l _
  · exact frameInvalid_pending s l 0xA0 none

theorem keepsQueue_receiveRequest (r : TrunkRequest) : KeepsQueue (receiveRequest r) :=
  keepsQueue_receive _ (keepsQueue_discardFrame .trunk) (acceptRequest_pending · r) keepsQueue_id keepsQueue_id

/-- A frame that is for UP alone is invalid in DOZE, and is discarded in TRAINING and WAKING (R97, R119, R120). -/
theorem keepsQueue_moduleFrame (p : PortIdx) (size : Nat) {live : State → State} (hl : KeepsQueue live) (kind : Byte)
    (c : Option CreditClass) :
    KeepsQueue (receive (.branch p) size (discardFrame (.branch p)) live (frameInvalid (.branch p) kind c)
      (discardFrame (.branch p))) :=
  keepsQueue_receive size (keepsQueue_discardFrame _) hl (keepsQueue_frameInvalid _ kind c) (keepsQueue_discardFrame _)

/-! ### Every command -/

/-- Settles O2: each command answers the state that its meaning gives, and each meaning keeps the queue. -/
theorem commandsCompleteAndKeepTheQueue : Obligations.CommandsCompleteAndKeepTheQueue := by
  unfold Obligations.CommandsCompleteAndKeepTheQueue
  intro c s
  cases c with
  | porAssert => exact ⟨_, rfl, rfl⟩
  | porRelease id1 id0 => exact ⟨_, rfl, startTraining_pending _ .trunk⟩
  | signalLost l => exact ⟨_, rfl, KeepsQueue.whenPowered (loseSignal_pending · l) s⟩
  | signalPresent l | transmitterFree l => exact ⟨_, rfl, (keepsQueue_modLink l _).whenPowered s⟩
  | routerTimeTick => exact ⟨_, rfl, KeepsQueue.whenPowered tick_pending s⟩
  | crcError l => exact ⟨_, rfl, crcFail_pending s l⟩
  | trunkReset size =>
    have reset : KeepsQueue trunkReset := trunkReset_pending
    exact ⟨_, rfl, keepsQueue_receive size (keepsQueue_discardFrame _) (reset.ite (keepsQueue_frameInvalid _ _ _)) keepsQueue_id
      keepsQueue_id s⟩
  | syncReceived l size a b => exact ⟨_, rfl, keepsQueue_receiveSync l size a b s⟩
  | syncAckReceived l size a b => exact ⟨_, rfl, keepsQueue_receiveSyncAck l size a b s⟩
  | creditReceived l size a b => exact ⟨_, rfl, keepsQueue_receiveCredit l size a b s⟩
  | disallowedKindFrame l size kind =>
    exact ⟨_, rfl, keepsQueue_receive size (keepsQueue_discardFrame l) (keepsQueue_frameInvalid _ _ _)
      (keepsQueue_frameInvalid _ _ _) (keepsQueue_discardFrame l) s⟩
  | moduleWriteArrival p size n a data =>
    have accepted : KeepsQueue (acceptUpWrite p n.toNat a data) := (acceptUpWrite_pending · p n.toNat a data)
    exact ⟨_, rfl, keepsQueue_moduleFrame p size (accepted.ite (keepsQueue_frameInvalid _ _ _)) _ _ s⟩
  | branchResultArrival p size st ticket n data =>
    exact ⟨_, rfl, keepsQueue_moduleFrame p size (acceptResult_pending · p size st ticket n data) _ _ s⟩
  | eventFrame p size code =>
    have arrived : KeepsQueue (arrival (eventLine p code)) := arrival_pending _
    exact ⟨_, rfl, keepsQueue_moduleFrame p size (arrived.ite (keepsQueue_frameInvalid _ _ _)) _ _ s⟩
  | dozeAck p size =>
    have accepted : KeepsQueue (acceptDozeAck p) := (acceptDozeAck_pending · p)
    exact ⟨_, rfl, keepsQueue_moduleFrame p size (accepted.ite (keepsQueue_frameInvalid _ _ _)) _ _ s⟩
  | moduleWake p size =>
    have woken : KeepsQueue (enterWaking false p) := (enterWaking_pending · false p)
    exact ⟨_, rfl, keepsQueue_receive size (keepsQueue_discardFrame _) (keepsQueue_id.ite (keepsQueue_frameInvalid _ _ _))
      (woken.ite (keepsQueue_frameInvalid _ _ _)) (keepsQueue_discardFrame _) s⟩
  | resendDeadline l => exact ⟨_, rfl, KeepsQueue.whenPowered (resendReached_pending · l) s⟩
  | retryDeadline l => exact ⟨_, rfl, KeepsQueue.whenPowered (retryReached_pending · l) s⟩
  | ticketDeadline i => exact ⟨_, rfl, KeepsQueue.whenPowered (ticketReached_pending · i) s⟩
  | headWaitDeadline => exact ⟨_, rfl, KeepsQueue.whenPowered headWaitReached_pending s⟩
  | answerDeadline p => exact ⟨_, rfl, KeepsQueue.whenPowered (answerReached_pending · p) s⟩
  | wakeDeadline p => exact ⟨_, rfl, KeepsQueue.whenPowered (wakeReached_pending · p) s⟩
  | idleDeadline p => exact ⟨_, rfl, KeepsQueue.whenPowered (idleReached_pending · p) s⟩
  | syncTransmit l => exact ⟨_, rfl, (KeepsQueue.ifReady (sendSync_pending · l) (syncReady · l)).whenPowered s⟩
  | syncAckTransmit l => exact ⟨_, rfl, ((keepsQueue_modLink l _).ifReady (syncAckReady · l)).whenPowered s⟩
  | creditTransmit l => exact ⟨_, rfl, ((keepsQueue_modLink l _).ifReady (creditReady · l)).whenPowered s⟩
  | dozeReqTransmit p =>
    have sent : KeepsQueue (sendDozeReq p) := fun _ => rfl
    exact ⟨_, rfl, (sent.ifReady (dozeReqReady · p)).whenPowered s⟩
  | wakeTransmit p =>
    have sent : KeepsQueue (sendWake p) := fun _ => rfl
    exact ⟨_, rfl, (sent.ifReady (wakeReady · p)).whenPowered s⟩
  | branchEgressTransmit p =>
    refine ⟨_, rfl, KeepsQueue.whenPowered (fun u => ?_) s⟩
    cases u.egressReady p with
    | none => rfl
    | some q => exact sendEgress_pending u p q
  | replyLaneTransmit => exact ⟨_, rfl, (KeepsQueue.ifReady sendReply_pending State.replyReady).whenPowered s⟩
  | generalQueueTransmit => exact ⟨_, rfl, (KeepsQueue.ifReady sendGeneral_pending State.generalReady).whenPowered s⟩
  | trunkIngressFrame | windowRecordWrite | apertureBaseWrite | ticketLifetimeWrite | headWaitLimitWrite | routerReset
  | portEnable | autoDozeIntervalWrite | dozeCommand | wakeCommand | portResetCommand | eventLineEnableWrite | ack | clear
  | pop | droppedCountClear | counterClear | managementWrite => exact ⟨_, rfl, keepsQueue_receiveRequest _ s⟩

/-- Settles O1: a step with a command waiting, and a step with none. -/
theorem stepRunsTheFrontCommand : Obligations.StepRunsTheFrontCommand := by
  unfold Obligations.StepRunsTheFrontCommand
  intro s
  constructor
  · intro c rest waiting
    rw [step, waiting]
    rfl
  · intro empty
    rw [step, empty]

end Sys2Proof.Machine
end
